-- ==== Sys2Proof/Word.lean ====
section
/-! DEFINITION. The word types of the dogtricks frame framer: every link byte, frame field and buffer element is 8 bits,
the opcode is 16 bits, a listing's command word is 32 bits and its TXBUF write word 16 (R11, R81). -/

namespace Sys2Proof

/-- A link byte, frame field, buffer element or buffer index (R11). -/
abbrev Byte := BitVec 8

/-- The 16-bit application opcode (R11). -/
abbrev Opcode := BitVec 16

/-- A 4-bit code: `rx_state`, `fatal_cause`, event codes (R21, R31, R42). -/
abbrev Code4 := BitVec 4

/-- A host command word CW as R81 lays it out. -/
abbrev CommandWord := BitVec 32

/-- A TXBUF write word TW as R81 lays it out. -/
abbrev TxbWord := BitVec 16

end Sys2Proof
end

