-- ==== Sys2Proof/Config.lean ====
section
/-! DEFINITION. What an instance of the block fixes for its life (R45): the wire constants, the sizes and the two parameters;
and the free values that stand for outputs the spec leaves unspecified (I4). -/

namespace Sys2Proof

/-- The configuration record of R7 to R10. The spec calls the literals unaudited and makes the wire constants and the 253 and 255
limits parameters, so rules refer to the fields (I1). -/
structure Config where
  /-- `SYNC`, the first byte of every frame -/
  sync : Byte
  /-- `VERSION`, the protocol version byte sent -/
  version : Byte
  /-- `MODULE_ID`, the module id byte sent -/
  moduleId : Byte
  /-- `TYPE_MSG`, the frame type of a Message -/
  typeMsg : Byte
  /-- `TYPE_ACK`, the frame type of an Ack -/
  typeAck : Byte
  /-- `ESC`, the escape byte -/
  esc : Byte
  /-- `SUB_SYNC`, the substitute that stands for `SYNC` -/
  subSync : Byte
  /-- `SUB_ESC`, the substitute that stands for `ESC` -/
  subEsc : Byte
  /-- `MAX_PAYLOAD`, the largest payload, opcode not counted (R8) -/
  maxPayload : Nat
  /-- `MAX_BODY`, the largest value of the length field (R8) -/
  maxBody : Nat
  /-- `ESCAPE_ERROR_FATAL` (R9) -/
  escapeErrorFatal : Bool
  /-- `SEQ_INIT` (R10) -/
  seqInit : Byte
  deriving DecidableEq, Repr

/-- The document's values (R7, R8) and the parameters' defaults (R9, R10). -/
def Config.default : Config where
  sync := 0xA4
  version := 0x03
  moduleId := 0x00
  typeMsg := 0x00
  typeAck := 0x80
  esc := 0x1B
  subSync := 0x53
  subEsc := 0x1B
  maxPayload := 253
  maxBody := 255
  escapeErrorFatal := false
  seqInit := 0x00

/-- What R7 requires of the wire constants: `SYNC ≠ ESC` and `SUB_SYNC ≠ SUB_ESC`. -/
def Config.wf (c : Config) : Bool :=
  c.sync != c.esc && c.subSync != c.subEsc

/-- `TXBUF_SIZE`: "the size is `MAX_PAYLOAD`" (R8, R33). -/
def Config.txbufSize (c : Config) : Nat := c.maxPayload

/-- `RXBUF_SIZE`: "the size is `MAX_BODY`" (R8, R34). -/
def Config.rxbufSize (c : Config) : Nat := c.maxBody

/-- FREE VALUE (I4, log entry 4): `rxb_rdata` outside the defined read, by step and address. -/
opaque Config.freeRxbRdata : Nat → Byte → Byte

/-- FREE VALUE (I4, log entry 4): `rx_opcode` while `rx_frame_valid = 0`, by step. -/
opaque Config.freeRxOpcode : Nat → Opcode

/-- FREE VALUE (I4, log entry 4): `rx_plen` while `rx_frame_valid = 0`, by step. -/
opaque Config.freeRxPlen : Nat → Byte

/-- FREE VALUE (I4, log entry 4): `rx_hdr_seq` while `rx_frame_valid = 0`, by step. -/
opaque Config.freeRxHdrSeq : Nat → Byte

/-- FREE VALUE (I4, log entry 4): `rx_hdr_ver` while `rx_frame_valid = 0`, by step. -/
opaque Config.freeRxHdrVer : Nat → Byte

/-- FREE VALUE (I4, log entry 4): `rx_hdr_mod` while `rx_frame_valid = 0`, by step. -/
opaque Config.freeRxHdrMod : Nat → Byte

/-- FREE VALUE (log entry 4): `tx_data` while `tx_valid = 0`, where R37 states no value, by step. -/
opaque Config.freeTxData : Nat → Byte

end Sys2Proof
end

