-- ==== Sys2Proof/Syntax.lean ====
section
/-! DEFINITION. The instructions: one constructor for each row of spec/opcode_table.json, and the word forms they are read
from (R80, R81, R84). -/

namespace Sys2Proof

/-- The opcode table's rows. A field the spec calls ignored (`hc_len` and `hc_opcode` of the commands other than SEND, R81; the
opcode of an oversize SEND, R107) is not carried. -/
inductive Instr where
  /-- NOP, command code 0 (R159) -/
  | nop
  /-- START, command code 1 (R156) -/
  | start
  /-- STOP, command code 2 (R157) -/
  | stop
  /-- SEND, command code 3 with `hc_len` at most `MAX_PAYLOAD` (R106) -/
  | send (opcode : Opcode) (len : Byte)
  /-- SEND_OVERSIZE, command code 3 with `hc_len` above `MAX_PAYLOAD` (R107) -/
  | sendOversize (len : Byte)
  /-- RX_RELEASE, command code 4 (R158) -/
  | rxRelease
  /-- RSVD5, command code 5 (R160) -/
  | rsvd5
  /-- RSVD6, command code 6 (R160) -/
  | rsvd6
  /-- RSVD7, command code 7 (R160) -/
  | rsvd7
  /-- TXB_WRITE (R161, R162) -/
  | txbWrite (addr data : Byte)
  /-- RX_HUNT_SYNC: the byte `SYNC` in HUNT (R127) -/
  | rxHuntSync
  /-- RX_HUNT_DISCARD: any other byte in HUNT (R127) -/
  | rxHuntDiscard (w : Byte)
  /-- RX_ESC_PREFIX: the byte `ESC` inside a frame, no escape pending (R128) -/
  | rxEscPrefix
  /-- RX_LIT: any other byte inside a frame, no escape pending (R128, R145) -/
  | rxLit (w : Byte)
  /-- RX_ESC_SYNC: the substitute `SUB_SYNC` after `ESC` (R128) -/
  | rxEscSync
  /-- RX_ESC_ESC: the substitute `SUB_ESC` after `ESC` (R128) -/
  | rxEscEsc
  /-- RX_ESC_BAD: any other byte after `ESC` (R129) -/
  | rxEscBad (w : Byte)
  /-- FT_MSG: a validated frame of type `TYPE_MSG` (R137) -/
  | ftMsg
  /-- FT_ACK: a validated frame of type `TYPE_ACK` (R138) -/
  | ftAck
  /-- FT_OTHER: a validated frame of any other type (R139) -/
  | ftOther (t : Byte)
  deriving DecidableEq, Repr

/-- The RX context a wire byte is read in (R84): HUNT; inside a frame with no escape pending; after `ESC`. -/
inductive RxContext where
  | hunt
  | plain
  | escaped
  deriving DecidableEq, Repr

/-- The four formats of the opcode table (R84). A wire byte's word includes the context R84 matches it in. -/
inductive InstrWord where
  /-- a host command word (format CW) -/
  | cw (w : CommandWord)
  /-- a TXBUF write word (format TW) -/
  | tw (w : TxbWord)
  /-- a wire byte in its RX context (format RXB) -/
  | rxb (ctx : RxContext) (w : Byte)
  /-- the frame type byte of a validated frame (format FT) -/
  | ft (t : Byte)
  deriving DecidableEq, Repr

end Sys2Proof
end

