-- ==== Sys2Proof/WellFormed.lean ====
section
/-! DEFINITION. Which operands a row of the opcode table admits. -/

namespace Sys2Proof

/-- The operand checks of the opcode table: SEND carries at most `MAX_PAYLOAD` bytes (R106), SEND_OVERSIZE more (R107), and a
lower-priority row carries none of the bytes a higher-priority row of its context takes (R84). -/
def Instr.wellFormed (c : Config) : Instr → Bool
  | .nop => true
  | .start => true
  | .stop => true
  | .send _ len => decide (len.toNat ≤ c.maxPayload)
  | .sendOversize len => decide (c.maxPayload < len.toNat)
  | .rxRelease => true
  | .rsvd5 => true
  | .rsvd6 => true
  | .rsvd7 => true
  | .txbWrite _ _ => true
  | .rxHuntSync => true
  | .rxHuntDiscard w => w != c.sync
  | .rxEscPrefix => true
  | .rxLit w => w != c.esc
  | .rxEscSync => true
  | .rxEscEsc => true
  | .rxEscBad w => w != c.subSync && w != c.subEsc
  | .ftMsg => true
  | .ftAck => true
  | .ftOther t => t != c.typeMsg && t != c.typeAck

end Sys2Proof
end

