-- ==== Sys2Proof/Decode.lean ====
section
/-! DEFINITION. Decoding, total on every word, and the encoder (R76 to R84). -/

namespace Sys2Proof

/-- Why a word is no instruction. -/
inductive DecodeError where
  /-- a command word with CW[31:27] ≠ 0 spells no command (R81, I12) -/
  | notACommand (w : CommandWord)
  deriving DecidableEq, Repr

/-- What the decoder answers. -/
inductive Decoded where
  | instr (i : Instr)
  | reject (e : DecodeError)
  deriving DecidableEq, Repr

/-- The instruction, if the word has one. -/
def Decoded.instr? : Decoded → Option Instr
  | .instr i => some i
  | .reject _ => none

/-- CW[31:27], which must be 0 (R81). -/
def commandReserved (w : CommandWord) : BitVec 5 := w.extractLsb' 27 5

/-- CW[26:24], `hc_code` (R81). -/
def commandCode (w : CommandWord) : BitVec 3 := w.extractLsb' 24 3

/-- CW[23:16], `hc_len` (R81). -/
def commandLen (w : CommandWord) : Byte := w.extractLsb' 16 8

/-- CW[15:0], `hc_opcode` (R81). -/
def commandOpcode (w : CommandWord) : Opcode := w.extractLsb' 0 16

/-- TW[15:8], `txb_addr` (R81). -/
def txbWordAddr (w : TxbWord) : Byte := w.extractLsb' 8 8

/-- TW[7:0], `txb_wdata` (R81). -/
def txbWordData (w : TxbWord) : Byte := w.extractLsb' 0 8

/-- The two rows of command code 3 (R84): the length tells them apart. -/
def decodeSend (c : Config) (opcode : Opcode) (len : Byte) : Instr :=
  if len.toNat ≤ c.maxPayload then .send opcode len else .sendOversize len

/-- A host command word (R80, R81). -/
def decodeCommand (c : Config) (w : CommandWord) : Decoded :=
  if commandReserved w = 0#5 then
    match (commandCode w).toNat with
    | 0 => .instr .nop
    | 1 => .instr .start
    | 2 => .instr .stop
    | 3 => .instr (decodeSend c (commandOpcode w) (commandLen w))
    | 4 => .instr .rxRelease
    | 5 => .instr .rsvd5
    | 6 => .instr .rsvd6
    | _ => .instr .rsvd7
  else .reject (.notACommand w)

/-- A TXBUF write word (R81). -/
def decodeTxbWrite (w : TxbWord) : Instr := .txbWrite (txbWordAddr w) (txbWordData w)

/-- A wire byte in its context, the specific rows before the mask-0 row (R77, R84). -/
def decodeRxByte (c : Config) (ctx : RxContext) (w : Byte) : Instr :=
  match ctx with
  | .hunt => if w = c.sync then .rxHuntSync else .rxHuntDiscard w
  | .plain => if w = c.esc then .rxEscPrefix else .rxLit w
  | .escaped => if w = c.subSync then .rxEscSync else if w = c.subEsc then .rxEscEsc else .rxEscBad w

/-- The frame type of a validated frame (R70, R84). DESIGN CHOICE (log entry 21): in a configuration whose `TYPE_MSG` and `TYPE_ACK`
are one value, it is a Message. -/
def decodeFrameType (c : Config) (t : Byte) : Instr :=
  if t = c.typeMsg then .ftMsg else if t = c.typeAck then .ftAck else .ftOther t

/-- The decoder over all four formats. -/
def decode (c : Config) : InstrWord → Decoded
  | .cw w => decodeCommand c w
  | .tw w => .instr (decodeTxbWrite w)
  | .rxb ctx w => .instr (decodeRxByte c ctx w)
  | .ft t => .instr (decodeFrameType c t)

/-- A command word from its fields, CW[31:27] = 0 (R81). -/
def encodeCommand (code : BitVec 3) (len : Byte) (opcode : Opcode) : CommandWord :=
  (0 : BitVec 5) ++ code ++ len ++ opcode

/-- A TXBUF write word from its fields (R81). -/
def encodeTxbWrite (addr data : Byte) : TxbWord := addr ++ data

/-- The word of an instruction; ignored fields are written 0 (R81). -/
def encode (c : Config) : Instr → InstrWord
  | .nop => .cw (encodeCommand 0 0 0)
  | .start => .cw (encodeCommand 1 0 0)
  | .stop => .cw (encodeCommand 2 0 0)
  | .send opcode len => .cw (encodeCommand 3 len opcode)
  | .sendOversize len => .cw (encodeCommand 3 len 0)
  | .rxRelease => .cw (encodeCommand 4 0 0)
  | .rsvd5 => .cw (encodeCommand 5 0 0)
  | .rsvd6 => .cw (encodeCommand 6 0 0)
  | .rsvd7 => .cw (encodeCommand 7 0 0)
  | .txbWrite addr data => .tw (encodeTxbWrite addr data)
  | .rxHuntSync => .rxb .hunt c.sync
  | .rxHuntDiscard w => .rxb .hunt w
  | .rxEscPrefix => .rxb .plain c.esc
  | .rxLit w => .rxb .plain w
  | .rxEscSync => .rxb .escaped c.subSync
  | .rxEscEsc => .rxb .escaped c.subEsc
  | .rxEscBad w => .rxb .escaped w
  | .ftMsg => .ft c.typeMsg
  | .ftAck => .ft c.typeAck
  | .ftOther t => .ft t

/-- DESIGN CHOICE (log entry 6): one 8-bit word with no RX context beside it is read as the first row of the table that names
that byte, and, where none does, in HUNT. -/
def tableByteWord (c : Config) (b : Byte) : InstrWord :=
  if b = c.sync then .rxb .hunt b
  else if b = c.esc then .rxb .plain b
  else if b = c.subSync then .rxb .escaped b
  else if b = c.typeMsg then .ft b
  else if b = c.typeAck then .ft b
  else .rxb .hunt b

/-- The instruction of a table word, bit 0 the least significant of the row's number: 32 bits a command word, 16 a TXBUF write
word, 8 a byte. -/
def decodeTableWord (nbits w : Nat) : Option Instr :=
  match nbits with
  | 32 => (decode Config.default (.cw (BitVec.ofNat 32 w))).instr?
  | 16 => (decode Config.default (.tw (BitVec.ofNat 16 w))).instr?
  | 8 => (decode Config.default (tableByteWord Config.default (BitVec.ofNat 8 w))).instr?
  | _ => none

end Sys2Proof
end

