-- ==== Sys2Proof/Machine/State.lean ====
section
/-! DEFINITION. The state of the block (spec/10_state.md), the environment's script that drives it, the reasons a step can
stop, and the state after reset (R44). -/

namespace Sys2Proof.Machine

/-- `rx_state`, the position of the RX deframer (R21). -/
inductive RxState where
  | stopped
  | hunt
  | ver
  | mod
  | seq
  | type
  | len
  | body
  | cksum
  | ackWait
  | deliver
  deriving DecidableEq, Repr

/-- `tx_kind`, the kind of the frame in flight (R30). -/
inductive TxKind where
  | none
  | ack
  | msg
  deriving DecidableEq, Repr

/-- The events of R176, by name. -/
inductive EventCode where
  | rxMsgReady
  | rxAckSeen
  | rxDropChecksum
  | rxDropShortFrame
  | rxDropBadEscape
  | rxDropUnknownType
  | rxDropShortMsg
  | rxAbortStop
  | txMsgDone
  | txAckDone
  | cmdRejectOversize
  | cmdIllegal
  | fatalLink
  | fatalBadEscape
  | txbWriteRefused
  deriving DecidableEq, Repr

/-- What an event port carries while valid: a code and an argument (R42, R175). -/
structure Event where
  code : EventCode
  arg : Byte
  deriving DecidableEq, Repr

/-- The bytes of a buffer that have been written since reset, as (address, byte) pairs (R33, R34, R35). -/
abbrev Memory := List Host.Cell

/-- One thing the link gives the RX port: a byte, or the indication that a read timed out (R36, I8). -/
inductive LinkItem where
  | byte (b : Byte)
  | timeout
  deriving DecidableEq, Repr

/-- One thing the host does (R83): a command, a TXBUF write, an RXBUF read. -/
inductive HostAction where
  | command (w : CommandWord)
  | txbWrite (w : TxbWord)
  | rxbRead (addr : Byte)
  deriving DecidableEq, Repr

/-- Which agent has the next step (R6, I7), with what the link chooses in it: whether it offers the RX port its next item, and
whether it accepts a byte on the TX port (R36, R37). -/
inductive Turn where
  | reset
  | linkErr
  | host
  | rx (offered : Bool)
  | tx (ready : Bool)
  deriving DecidableEq, Repr

/-- The whole state: the block's registers and buffers, its event ports, its configuration (R45), and the model's own fields for
the environment (log entry 2) and its records (log entries 3 and 4). -/
structure State where
  /-- the instance's configuration (R45); no step changes it -/
  cfg : Config
  /-- `rx_state` (R21) -/
  rxState : RxState
  /-- `rx_esc` (R22) -/
  rxEsc : Bool
  /-- `rx_sum` (R23) -/
  rxSum : Byte
  /-- `rx_ver` (R24) -/
  rxVer : Byte
  /-- `rx_mod` (R24) -/
  rxMod : Byte
  /-- `rx_seq` (R24) -/
  rxSeq : Byte
  /-- `rx_type` (R24) -/
  rxType : Byte
  /-- `rx_len` (R24) -/
  rxLen : Byte
  /-- `rx_idx` (R25) -/
  rxIdx : Byte
  /-- `stop_req` (R26) -/
  stopReq : Bool
  /-- `ack_req` (R27) -/
  ackReq : Bool
  /-- `seq_next` (R28) -/
  seqNext : Byte
  /-- `msg_pending` (R29) -/
  msgPending : Bool
  /-- `msg_opcode` (R29) -/
  msgOpcode : Opcode
  /-- `msg_len` (R29) -/
  msgLen : Byte
  /-- `msg_seq` (R29) -/
  msgSeq : Byte
  /-- `tx_kind` (R30) -/
  txKind : TxKind
  /-- `tx_seq` (R30) -/
  txSeq : Byte
  /-- `tx_rem` (R30) -/
  txRem : List Byte
  /-- `fatal` (R31) -/
  fatal : Bool
  /-- `fatal_cause` (R31) -/
  fatalCause : Code4
  /-- `TXBUF` (R33); the listed addresses are those whose `txb_written` bit is 1 (R35) -/
  txbuf : Memory
  /-- `RXBUF` (R34) -/
  rxbuf : Memory
  /-- `rx_ev` in the last step (R42) -/
  rxEv : Option Event
  /-- `tx_ev` in the last step (R42) -/
  txEv : Option Event
  /-- `ctl_ev` in the last step (R42) -/
  ctlEv : Option Event
  /-- history of `rx_ev`, oldest first (R175) -/
  rxEvents : List Event
  /-- history of `tx_ev`, oldest first (R175) -/
  txEvents : List Event
  /-- history of `ctl_ev`, oldest first (R175) -/
  ctlEvents : List Event
  /-- the bytes handed to the link, oldest first (`put_tx`, R13) -/
  linkOut : List Byte
  /-- the host's RXBUF reads, address and data, oldest first (R163) -/
  hostReads : List (Byte × Byte)
  /-- what the link will still offer, in order (R36, R58) -/
  linkq : List LinkItem
  /-- what the host will still do, in order (R39, R40) -/
  hostq : List HostAction
  /-- which agent moves next (R6) -/
  sched : List Turn
  /-- how many steps have been taken: the index of the free values -/
  ticks : Nat
  deriving DecidableEq, Repr

/-- Why a step stops with a fault of the model. -/
inductive Fault where
  /-- LOAD of a Message whose payload includes a TXBUF byte not written since reset (R110, R118, I3). SAFE: the hardware would
  send some byte, and no claim about such a run can be proved. -/
  | unwrittenTxbuf
  /-- A body byte at an index outside RXBUF (R50). R135 derives that `rx_idx` is at most 254, so with `MAX_BODY` at least 255 no run
  from reset raises it. SAFE. -/
  | rxbufIndex
  deriving DecidableEq, Repr

/-- Why a step is refused. -/
inductive Refusal where
  /-- An instruction whose meaning is not written yet, by its mnemonic: raised by `exec` alone. SAFE. -/
  | notModelled (mnemonic : String)
  /-- The host presented a command word with CW[31:27] ≠ 0, which spells no command (R81, I12): raised when a command is taken
  from the host. SAFE: the hardware port has no such bits. -/
  | notACommand (w : CommandWord)
  deriving DecidableEq, Repr

/-- The values of R44 for an instance with configuration `c`, with an empty environment script and empty records. -/
def State.resetWith (c : Config) : State where
  cfg := c
  rxState := .stopped
  rxEsc := false
  rxSum := 0
  rxVer := 0
  rxMod := 0
  rxSeq := 0
  rxType := 0
  rxLen := 0
  rxIdx := 0
  stopReq := false
  ackReq := false
  seqNext := c.seqInit
  msgPending := false
  msgOpcode := 0
  msgLen := 0
  msgSeq := 0
  txKind := .none
  txSeq := 0
  txRem := []
  fatal := false
  fatalCause := 0
  txbuf := []
  rxbuf := []
  rxEv := none
  txEv := none
  ctlEv := none
  rxEvents := []
  txEvents := []
  ctlEvents := []
  linkOut := []
  hostReads := []
  linkq := []
  hostq := []
  sched := []
  ticks := 0

/-- The machine right after reset, with the document's constants and the default parameters (R7, R9, R10, R44). -/
def State.reset : State := State.resetWith Config.default

end Sys2Proof.Machine
end

