-- ==== Sys2Proof/Machine/Ops.lean ====
section
/-! DEFINITION. The named operations over buffers, registers and event ports: reading and writing a buffer byte, the codes of
registers and events, raising an event, aborting a frame (R178), entering the fatal state (R182) and leaving it by reset (R183,
R195). -/

namespace Sys2Proof.Machine

/-! ## Codes -/

/-- The code of `rx_state` on `st_rx_state` (R21). -/
def RxState.code : RxState → Code4
  | .stopped => 0x0
  | .hunt => 0x1
  | .ver => 0x2
  | .mod => 0x3
  | .seq => 0x4
  | .type => 0x5
  | .len => 0x6
  | .body => 0x7
  | .cksum => 0x8
  | .ackWait => 0x9
  | .deliver => 0xA

/-- `ACCUM`, the states inside a frame (R21). -/
def RxState.isAccum : RxState → Bool
  | .ver => true
  | .mod => true
  | .seq => true
  | .type => true
  | .len => true
  | .body => true
  | .cksum => true
  | .stopped => false
  | .hunt => false
  | .ackWait => false
  | .deliver => false

/-- `BYTE_STATES = {HUNT} ∪ ACCUM` (R21). -/
def RxState.isByteState (r : RxState) : Bool := r == .hunt || r.isAccum

/-- The code of `tx_kind` (R30). -/
def TxKind.code : TxKind → BitVec 2
  | .none => 0
  | .ack => 1
  | .msg => 2

/-- The event codes of R176. -/
def EventCode.code : EventCode → Code4
  | .rxMsgReady => 0x1
  | .rxAckSeen => 0x2
  | .rxDropChecksum => 0x3
  | .rxDropShortFrame => 0x4
  | .rxDropBadEscape => 0x5
  | .rxDropUnknownType => 0x6
  | .rxDropShortMsg => 0x7
  | .rxAbortStop => 0x8
  | .txMsgDone => 0x9
  | .txAckDone => 0xA
  | .cmdRejectOversize => 0xB
  | .cmdIllegal => 0xC
  | .fatalLink => 0xD
  | .fatalBadEscape => 0xE
  | .txbWriteRefused => 0xF

/-- `zext_8` of a state code, the argument of two events (R126, R144). -/
def RxState.arg (r : RxState) : Byte := r.code.setWidth 8

/-! ## Buffers -/

/-- `MemRead`: the byte at an address, if it has been written since reset (R13, R44). -/
def Memory.read (m : Memory) (a : Nat) : Option Byte :=
  match m with
  | [] => none
  | (b, v) :: rest => if a = b then some v else Memory.read rest a

/-- `MemWrite`: the byte put in its place in the canonical form (R13). -/
def Memory.write (m : Memory) (a : Nat) (v : Byte) : Memory :=
  match m with
  | [] => [(a, v)]
  | (b, u) :: rest =>
    if a < b then (a, v) :: (b, u) :: rest
    else if a = b then (a, v) :: rest
    else (b, u) :: Memory.write rest a v

/-- Addresses strictly rising from `lo` on and below `size`. -/
def Memory.wfFrom (size lo : Nat) : Memory → Bool
  | [] => true
  | (a, _) :: rest => decide (lo ≤ a) && decide (a < size) && Memory.wfFrom size (a + 1) rest

/-- The canonical form of a buffer of `size` bytes (R50): addresses strictly rising, each inside the buffer. An unlisted byte has
no value, so no entry can equal it. -/
def Memory.wf (size : Nat) (m : Memory) : Bool := Memory.wfFrom size 0 m

/-- `txb_written[i]` (R35). -/
def State.txbWritten (s : State) (i : Nat) : Bool := (Memory.read s.txbuf i).isSome

/-! ## Events -/

/-- `raise Event(rx_ev, code, arg)` (R13, R175). -/
def raiseRx (code : EventCode) (arg : Byte) (s : State) : State :=
  { s with rxEv := some ⟨code, arg⟩, rxEvents := s.rxEvents ++ [⟨code, arg⟩] }

/-- `raise Event(tx_ev, code, arg)` (R13, R175). -/
def raiseTx (code : EventCode) (arg : Byte) (s : State) : State :=
  { s with txEv := some ⟨code, arg⟩, txEvents := s.txEvents ++ [⟨code, arg⟩] }

/-- `raise Event(ctl_ev, code, arg)` (R13, R175). -/
def raiseCtl (code : EventCode) (arg : Byte) (s : State) : State :=
  { s with ctlEv := some ⟨code, arg⟩, ctlEvents := s.ctlEvents ++ [⟨code, arg⟩] }

/-- The start of a step: the event ports carry nothing until the step raises an event, since a port shows an event in its own
step only (R175); the step is counted. -/
def beginStep (s : State) : State :=
  { s with rxEv := none, txEv := none, ctlEv := none, ticks := s.ticks + 1 }

/-! ## Frame abort, fatal state, reset -/

/-- A frame abort (R178): the cause goes into the event, the deframer hunts again, every other register stays. R179: there is no
return from it, the next byte is hunted. -/
def frameAbort (code : EventCode) (arg : Byte) (s : State) : State :=
  { raiseRx code arg s with rxState := .hunt, rxEsc := false }

/-- `raise Fatal(cause)` (R182): the fatal flag and its cause; every other register is frozen. -/
def raiseFatal (cause : EventCode) (s : State) : State :=
  { s with fatal := true, fatalCause := cause.code }

/-- Reset in a run (R195), the only way out of the fatal state (R183): every register and buffer takes its reset value. The
configuration (R45), the link's offered bytes (R195), the host's script and the records stay; no event is raised. -/
def applyReset (s : State) : State :=
  { State.resetWith s.cfg with
    rxEvents := s.rxEvents, txEvents := s.txEvents, ctlEvents := s.ctlEvents
    linkOut := s.linkOut, hostReads := s.hostReads
    linkq := s.linkq, hostq := s.hostq, sched := s.sched, ticks := s.ticks }

end Sys2Proof.Machine
end

