-- ==== Sys2Proof/Machine/Operands.lean ====
section
/-! DEFINITION. Where a step's operands come from: the payload in TXBUF (R110), the RX context of a wire byte (R84), the buffer
bytes a delivery shows (R41, R163). -/

namespace Sys2Proof.Machine

/-- `[MemRead(TXBUF, i, 1) for i in from .. from+n-1]`, if every one of them has been written since reset (R110, R118). -/
def payloadFrom (m : Memory) (start : Nat) : Nat → Option (List Byte)
  | 0 => some []
  | n + 1 =>
    match Memory.read m start, payloadFrom m (start + 1) n with
    | some b, some bs => some (b :: bs)
    | _, _ => none

/-- The payload of the queued Message, `TXBUF[0..msg_len)` (R110). -/
def State.messagePayload (s : State) : Option (List Byte) := payloadFrom s.txbuf 0 s.msgLen.toNat

/-- The context a wire byte is read in, where the deframer takes bytes (R84). -/
def State.rxContext (s : State) : Option RxContext :=
  if s.rxState = .hunt then some .hunt
  else if s.rxState.isAccum then some (if s.rxEsc then .escaped else .plain)
  else none

/-- `RXBUF[a]` in a delivery; a byte no rule has written since reset has no stated value and is free (R44, I22). -/
def State.rxbufByte (s : State) (a : Byte) : Byte :=
  (Memory.read s.rxbuf a.toNat).getD (Config.freeRxbRdata s.ticks a)

end Sys2Proof.Machine
end

