-- ==== Sys2Proof/Machine/Flags.lean ====
section
/-! DEFINITION. The block has no flags (R32). What a host or the link sees of the state are these derived outputs: readiness
(R36, R37, R43), status (R32) and delivery (R41). -/

namespace Sys2Proof.Machine

/-- `rx_ready` (R36). -/
def State.rxReady (s : State) : Bool := !s.fatal && s.rxState.isByteState && !s.stopReq

/-- `tx_valid` (R37). -/
def State.txValid (s : State) : Bool := !s.fatal && !s.txRem.isEmpty

/-- `tx_data` (R37): the head of `tx_rem` while `tx_valid = 1`; the spec states no value otherwise, so it is free. -/
def State.txData (s : State) : Byte :=
  if s.txValid then s.txRem.headD (Config.freeTxData s.ticks) else Config.freeTxData s.ticks

/-- `tx_msg_busy` (R43). -/
def State.txMsgBusy (s : State) : Bool := s.msgPending || s.txKind == .msg

/-- `hc_ready` for a presented `hc_code` (R43): 1 except for a SEND while a Message is queued or in flight, not fatal. -/
def State.hcReady (s : State) (code : BitVec 3) : Bool := s.fatal || code != 3 || !s.txMsgBusy

/-- `st_fatal` (R32). -/
def State.stFatal (s : State) : Bool := s.fatal

/-- `st_fatal_cause` (R32). -/
def State.stFatalCause (s : State) : Code4 := s.fatalCause

/-- `st_rx_state` (R32). -/
def State.stRxState (s : State) : Code4 := s.rxState.code

/-- `st_tx_busy` (R32). -/
def State.stTxBusy (s : State) : Bool := s.txKind != .none || s.msgPending || s.ackReq

/-- `st_seq_next` (R32). -/
def State.stSeqNext (s : State) : Byte := s.seqNext

/-- `rx_frame_valid` (R41). -/
def State.rxFrameValid (s : State) : Bool := !s.fatal && s.rxState == .deliver

/-- `rx_opcode` (R41): the first two body bytes, high byte first; free outside a delivery (I4). -/
def State.rxOpcode (s : State) : Opcode :=
  if s.rxFrameValid then s.rxbufByte 0 ++ s.rxbufByte 1 else Config.freeRxOpcode s.ticks

/-- `rx_plen` (R41); free outside a delivery (I4). -/
def State.rxPlen (s : State) : Byte := if s.rxFrameValid then s.rxLen - 2 else Config.freeRxPlen s.ticks

/-- `rx_hdr_seq` (R41); free outside a delivery (I4). -/
def State.rxHdrSeq (s : State) : Byte := if s.rxFrameValid then s.rxSeq else Config.freeRxHdrSeq s.ticks

/-- `rx_hdr_ver` (R41); free outside a delivery (I4). -/
def State.rxHdrVer (s : State) : Byte := if s.rxFrameValid then s.rxVer else Config.freeRxHdrVer s.ticks

/-- `rx_hdr_mod` (R41); free outside a delivery (I4). -/
def State.rxHdrMod (s : State) : Byte := if s.rxFrameValid then s.rxMod else Config.freeRxHdrMod s.ticks

/-- `rxb_rdata` at `rxb_addr` (R163): `RXBUF[rxb_addr]` in a delivery below `rx_len`; free otherwise (I4). -/
def State.rxbRdata (s : State) (addr : Byte) : Byte :=
  if s.rxFrameValid && decide (addr.toNat < s.rxLen.toNat) then s.rxbufByte addr else Config.freeRxbRdata s.ticks addr

/-- An RX step of the engine is enabled (R125), the link offering what it holds. -/
def State.rxStepEnabled (s : State) : Bool :=
  !s.fatal && ((s.rxState.isByteState && (s.stopReq || !s.linkq.isEmpty)) || (s.rxState == .ackWait && !s.ackReq))

/-- A TX step of the engine is enabled, the link accepting (R105). -/
def State.txStepEnabled (s : State) : Bool := !s.fatal && s.stTxBusy

end Sys2Proof.Machine
end

