-- ==== Sys2Proof/Machine/Buffers.lean ====
section
/-! DEFINITION. The host's two buffer ports: the TXBUF write (R161, R162) and the RXBUF read (R163). -/

namespace Sys2Proof.Machine

/-- TXB_WRITE: accepted into TXBUF (R161), or refused with an event while a Message is queued or in flight or outside TXBUF
(R162). No effect while fatal (R165). -/
def execTxbWrite (addr data : Byte) (s : State) : Host.Outcome State Fault Refusal :=
  if s.fatal then .next s
  else if s.txMsgBusy || decide (s.cfg.txbufSize ≤ addr.toNat) then .next (raiseCtl .txbWriteRefused addr s)
  else .next { s with txbuf := Memory.write s.txbuf addr.toNat data }

/-- The host reads `rxb_rdata` at an address (R83, R163): no state of the block changes; what the host saw is recorded. -/
def readRxb (addr : Byte) (s : State) : State :=
  { s with hostReads := s.hostReads ++ [(addr, s.rxbRdata addr)] }

end Sys2Proof.Machine
end

