-- ==== Sys2Proof/Machine/Command.lean ====
section
/-! DEFINITION. The host commands other than SEND: NOP, START, STOP, RX_RELEASE and the reserved codes (spec/43_control.md). While
`fatal = 1` every command is accepted with no effect and no event (R165). -/

namespace Sys2Proof.Machine

/-- NOP (R159): no change. -/
def execNop (s : State) : Host.Outcome State Fault Refusal := .next s

/-- START (R156): `STOPPED` becomes `HUNT`, and a STOP not yet taken is cancelled. -/
def execStart (s : State) : Host.Outcome State Fault Refusal :=
  if s.fatal then .next s
  else .next { s with rxState := if s.rxState = .stopped then .hunt else s.rxState, stopReq := false }

/-- STOP (R157): a request, taken at the next byte boundary (R126). -/
def execStop (s : State) : Host.Outcome State Fault Refusal :=
  if s.fatal || s.rxState == .stopped then .next s else .next { s with stopReq := true }

/-- The event of a command that is illegal: a reserved code, or a release with nothing delivered (R158, R160). -/
def commandIllegal (code : BitVec 3) (s : State) : State := raiseCtl .cmdIllegal (code.setWidth 8) s

/-- RX_RELEASE (R158): the delivered frame is done and the deframer hunts; with none delivered, CMD_ILLEGAL. -/
def execRxRelease (s : State) : Host.Outcome State Fault Refusal :=
  if s.fatal then .next s
  else if s.rxState = .deliver then .next { s with rxState := .hunt }
  else .next (commandIllegal 4 s)

/-- A reserved command code (R160): CMD_ILLEGAL with the code, nothing else. -/
def reservedCommand (code : BitVec 3) (s : State) : Host.Outcome State Fault Refusal :=
  if s.fatal then .next s else .next (commandIllegal code s)

/-- RSVD5 (R160). -/
def execRsvd5 (s : State) : Host.Outcome State Fault Refusal := reservedCommand 5 s

/-- RSVD6 (R160). -/
def execRsvd6 (s : State) : Host.Outcome State Fault Refusal := reservedCommand 6 s

/-- RSVD7 (R160). -/
def execRsvd7 (s : State) : Host.Outcome State Fault Refusal := reservedCommand 7 s

end Sys2Proof.Machine
end

