-- ==== Sys2Proof/Machine/FrameType.lean ====
section
/-! DEFINITION. Dispatch of a frame whose checksum has validated, by its type byte (R137 to R139). -/

namespace Sys2Proof.Machine

/-- The context of the frame-type rows (R84, R136): the deframer is at `CKSUM`, the residual sum is 0, and RX steps are enabled
(R125). -/
def State.atDispatch (s : State) : Bool := !s.fatal && !s.stopReq && s.rxState == .cksum && s.rxSum == 0#8

/-- FT_MSG (R137): the Ack is requested and the deframer waits for it. -/
def execFtMsg (s : State) : Host.Outcome State Fault Refusal :=
  if s.atDispatch && s.rxType == s.cfg.typeMsg then .next { s with rxState := .ackWait, ackReq := true }
  else .next s

/-- FT_ACK (R138): observed, not correlated with anything sent (R149). -/
def execFtAck (s : State) : Host.Outcome State Fault Refusal :=
  if s.atDispatch && s.rxType == s.cfg.typeAck then .next { raiseRx .rxAckSeen s.rxSeq s with rxState := .hunt }
  else .next s

/-- FT_OTHER (R139): the frame is dropped. -/
def execFtOther (t : Byte) (s : State) : Host.Outcome State Fault Refusal :=
  if s.atDispatch && s.rxType == t then .next (frameAbort .rxDropUnknownType t s)
  else .next s

/-- "dispatch on rx_type: rule R137, R138 or R139" (R136). DESIGN CHOICE (log entry 21): where `TYPE_MSG` and `TYPE_ACK` are one
value, R137 and R138 both apply and the spec gives no order; the model takes R137. -/
def dispatchFrame (s : State) : Host.Outcome State Fault Refusal :=
  if s.rxType = s.cfg.typeMsg then execFtMsg s
  else if s.rxType = s.cfg.typeAck then execFtAck s
  else execFtOther s.rxType s

end Sys2Proof.Machine
end

