-- ==== Sys2Proof/Machine/RxBytes.lean ====
section
/-! DEFINITION. What the RX deframer does with the wire byte it takes (R127 to R136, R145): one meaning per row of the opcode
table's RXB format. The byte itself has been taken from the link before (`take_rx`, Machine/Fetch.lean). -/

namespace Sys2Proof.Machine

/-- The guard of R127 and R128: not fatal, no STOP request, and the deframer takes bytes in this context. -/
def State.rxTakes (s : State) (ctx : RxContext) : Bool := !s.fatal && !s.stopReq && s.rxContext == some ctx

/-- BODY (R135): the byte goes to `RXBUF[rx_idx]`; the last one leads to the checksum. An index outside RXBUF is a fault (log
entry 10). -/
def rxBodyByte (b : Byte) (s : State) : Host.Outcome State Fault Refusal :=
  if s.rxIdx.toNat < s.cfg.rxbufSize then
    if s.rxIdx + 1 = s.rxLen then
      .next { s with rxbuf := Memory.write s.rxbuf s.rxIdx.toNat b, rxState := .cksum }
    else
      .next { s with rxbuf := Memory.write s.rxbuf s.rxIdx.toNat b, rxIdx := s.rxIdx + 1 }
  else .fault .rxbufIndex

/-- CKSUM (R136), the sum including the checksum byte: a nonzero residual drops the frame; otherwise its type is dispatched. -/
def rxChecksumByte (s : State) : Host.Outcome State Fault Refusal :=
  if s.rxSum = 0#8 then dispatchFrame s else .next (frameAbort .rxDropChecksum s.rxSum s)

/-- The rule of the field the deframer is at, for a logical byte already added to the sum (R130 to R136). -/
def rxField (b : Byte) (s : State) : Host.Outcome State Fault Refusal :=
  match s.rxState with
  | .ver => .next { s with rxVer := b, rxState := .mod }
  | .mod => .next { s with rxMod := b, rxState := .seq }
  | .seq => .next { s with rxSeq := b, rxState := .type }
  | .type => .next { s with rxType := b, rxState := .len }
  | .len => .next { s with rxLen := b, rxIdx := 0, rxState := if b = 0#8 then .cksum else .body }
  | .body => rxBodyByte b s
  | .cksum => rxChecksumByte s
  | .stopped => .next s
  | .hunt => .next s
  | .ackWait => .next s
  | .deliver => .next s

/-- `accept(b)` (R128): the logical byte is added to the running sum, then the rule of its field applies. -/
def acceptByte (b : Byte) (s : State) : Host.Outcome State Fault Refusal :=
  rxField b { s with rxSum := s.rxSum + b }

/-- `bad_escape(s)` (R129): the frame is dropped, or, with `ESCAPE_ERROR_FATAL`, the block enters the fatal state. -/
def badEscape (sub : Byte) (s : State) : State :=
  if s.cfg.escapeErrorFatal then raiseFatal .fatalBadEscape (raiseRx .fatalBadEscape sub s)
  else frameAbort .rxDropBadEscape sub s

/-- RX_HUNT_SYNC (R127): a frame starts. -/
def execRxHuntSync (s : State) : Host.Outcome State Fault Refusal :=
  if s.rxTakes .hunt then .next { s with rxSum := s.cfg.sync, rxEsc := false, rxState := .ver } else .next s

/-- RX_HUNT_DISCARD (R127): silently discarded. -/
def execRxHuntDiscard (_w : Byte) (s : State) : Host.Outcome State Fault Refusal := .next s

/-- RX_ESC_PREFIX (R128): an escape starts, no logical byte yet. -/
def execRxEscPrefix (s : State) : Host.Outcome State Fault Refusal :=
  if s.rxTakes .plain then .next { s with rxEsc := true } else .next s

/-- RX_LIT (R128): the byte is the logical byte, a raw `SYNC` included (R145). -/
def execRxLit (w : Byte) (s : State) : Host.Outcome State Fault Refusal :=
  if s.rxTakes .plain then acceptByte w s else .next s

/-- RX_ESC_SYNC (R128): the substitute stands for `SYNC`. -/
def execRxEscSync (s : State) : Host.Outcome State Fault Refusal :=
  if s.rxTakes .escaped then acceptByte s.cfg.sync { s with rxEsc := false } else .next s

/-- RX_ESC_ESC (R128): the substitute stands for `ESC`. -/
def execRxEscEsc (s : State) : Host.Outcome State Fault Refusal :=
  if s.rxTakes .escaped then acceptByte s.cfg.esc { s with rxEsc := false } else .next s

/-- RX_ESC_BAD (R129): an invalid escape. -/
def execRxEscBad (w : Byte) (s : State) : Host.Outcome State Fault Refusal :=
  if s.rxTakes .escaped then .next (badEscape w { s with rxEsc := false }) else .next s

end Sys2Proof.Machine
end

