-- ==== Sys2Proof/Machine/Codec.lean ====
section
/-! DEFINITION. The pure functions of spec/40_codec.md on byte lists: the checksum, byte-stuffing and the frame builders (R14). -/

namespace Sys2Proof.Machine

/-- `checksum(bs)`, the 8-bit sum (R90). -/
def checksum : List Byte → Byte
  | [] => 0
  | b :: bs => b + checksum bs

/-- `cks(bs)`, the checksum byte sent: the two's complement of the sum (R91). -/
def cks (bs : List Byte) : Byte := -(checksum bs)

/-- `verify(f)`: the frame with its checksum byte sums to 0 (R92). -/
def verify (f : List Byte) : Bool := checksum f == 0

/-- `stuff(b)`, the wire form of a logical byte at position 1 or later (R93). -/
def stuff (c : Config) (b : Byte) : List Byte :=
  if b = c.sync then [c.esc, c.subSync]
  else if b = c.esc then [c.esc, c.subEsc]
  else [b]

/-- `unstuff(s)`, the logical byte a substitute stands for; `none` is `BadEscape(s)` (R94). -/
def unstuff (c : Config) (s : Byte) : Option Byte :=
  if s = c.subSync then some c.sync
  else if s = c.subEsc then some c.esc
  else none

/-- The high byte of the opcode, sent first (R51). -/
def opcodeHigh (opcode : Opcode) : Byte := opcode.extractLsb' 8 8

/-- The low byte of the opcode (R51). -/
def opcodeLow (opcode : Opcode) : Byte := opcode.extractLsb' 0 8

/-- A Message frame before its checksum (R74, R96), for payloads of at most 253 bytes (R99). DESIGN CHOICE (log entry 23): for a longer
one, which R74 does not give, the length byte is taken modulo 256. -/
def messageHead (c : Config) (seq : Byte) (opcode : Opcode) (payload : List Byte) : List Byte :=
  [c.sync, c.version, c.moduleId, seq, c.typeMsg, BitVec.ofNat 8 (2 + payload.length), opcodeHigh opcode, opcodeLow opcode]
    ++ payload

/-- `frame_msg(seq, opcode, payload)` (R96). -/
def frameMsg (c : Config) (seq : Byte) (opcode : Opcode) (payload : List Byte) : List Byte :=
  messageHead c seq opcode payload ++ [cks (messageHead c seq opcode payload)]

/-- An Ack frame before its checksum (R75, R97). -/
def ackHead (c : Config) (seq : Byte) : List Byte :=
  [c.sync, c.version, c.moduleId, seq, c.typeAck, 0]

/-- `frame_ack(seq)` (R97). -/
def frameAck (c : Config) (seq : Byte) : List Byte := ackHead c seq ++ [cks (ackHead c seq)]

/-- The stuffed form of logical bytes at positions 1 and later (R98). -/
def stuffAll (c : Config) : List Byte → List Byte
  | [] => []
  | b :: bs => stuff c b ++ stuffAll c bs

/-- `wire(f)`: the first byte as it is, every other byte stuffed (R98), for a frame of at least one byte. DESIGN CHOICE (log entry 24):
the empty list, on which R14 wants a value and R98 gives none, goes to the empty list; no step asks for it. -/
def wire (c : Config) : List Byte → List Byte
  | [] => []
  | b :: bs => b :: stuffAll c bs

end Sys2Proof.Machine
end

