-- ==== Sys2Proof/Machine/TxFramer.lean ====
section
/-! DEFINITION. The TX framer (spec/41_tx_framer.md): the two forms of SEND, and the TX engine's steps LOAD, EMIT and COMPLETE. -/

namespace Sys2Proof.Machine

/-- The guard both forms of SEND share (R106, R107): not fatal, and no Message queued or in flight. Where it fails, a SEND is
discarded (fatal, R165) or waits (busy, R43), and nothing changes. -/
def State.sendAccepted (s : State) : Bool := !s.fatal && !s.txMsgBusy

/-- SEND, accepted form (R106): the message slot is filled, with the counter's value, and the counter advances (R108). -/
def execSend (opcode : Opcode) (len : Byte) (s : State) : Host.Outcome State Fault Refusal :=
  if s.sendAccepted && decide (len.toNat ≤ s.cfg.maxPayload) then
    .next { s with
      msgOpcode := opcode, msgLen := len, msgSeq := s.seqNext, seqNext := s.seqNext + 1, msgPending := true }
  else .next s

/-- SEND, oversize form (R107): rejected with an event; nothing sent, no sequence number used. -/
def execSendOversize (len : Byte) (s : State) : Host.Outcome State Fault Refusal :=
  if s.sendAccepted && decide (s.cfg.maxPayload < len.toNat) then .next (raiseCtl .cmdRejectOversize len s)
  else .next s

/-- LOAD of an Ack frame (R109). -/
def loadAck (s : State) : State :=
  { s with txKind := .ack, txSeq := s.rxSeq, txRem := wire s.cfg (frameAck s.cfg s.rxSeq) }

/-- LOAD of a Message frame (R110): the payload is captured from TXBUF; a byte never written is the model's fault (R118). -/
def loadMessage (s : State) : Host.Outcome State Fault Refusal :=
  match s.messagePayload with
  | some payload =>
    .next { s with
      txKind := .msg, txSeq := s.msgSeq
      txRem := wire s.cfg (frameMsg s.cfg s.msgSeq s.msgOpcode payload)
      msgPending := false }
  | none => .fault .unwrittenTxbuf

/-- LOAD, an Ack before a queued Message (R111). -/
def txLoad (s : State) : Host.Outcome State Fault Refusal :=
  if s.ackReq then .next (loadAck s)
  else if s.msgPending then loadMessage s
  else .next s

/-- COMPLETE of an Ack frame (R113). -/
def completeAck (s : State) : State :=
  raiseTx .txAckDone s.txSeq { s with ackReq := false, txKind := .none }

/-- COMPLETE of a Message frame (R114). -/
def completeMessage (s : State) : State :=
  raiseTx .txMsgDone s.txSeq { s with txKind := .none }

/-- EMIT (R112): the head of `tx_rem` goes to the link if the link accepts; otherwise it stays offered. -/
def txEmit (ready : Bool) (b : Byte) (rest : List Byte) (s : State) : State :=
  if ready then { s with txRem := rest, linkOut := s.linkOut ++ [b] } else s

/-- The TX engine's step (R105); none while fatal (R116). -/
def txStep (ready : Bool) (s : State) : Host.Outcome State Fault Refusal :=
  if s.fatal then .next s
  else
    match s.txKind, s.txRem with
    | .none, _ => txLoad s
    | .ack, [] => .next (completeAck s)
    | .msg, [] => .next (completeMessage s)
    | .ack, b :: rest => .next (txEmit ready b rest s)
    | .msg, b :: rest => .next (txEmit ready b rest s)

end Sys2Proof.Machine
end

