-- ==== Sys2Proof/Machine/Dispatch.lean ====
section
/-! DEFINITION. One arm for each row of the opcode table. -/

namespace Sys2Proof.Machine

def exec (i : Instr) (s : State) : Host.Outcome State Fault Refusal :=
  match i with
  | .nop => Sys2Proof.Machine.execNop s
  | .start => Sys2Proof.Machine.execStart s
  | .stop => Sys2Proof.Machine.execStop s
  | .send opcode len => Sys2Proof.Machine.execSend opcode len s
  | .sendOversize len => Sys2Proof.Machine.execSendOversize len s
  | .rxRelease => Sys2Proof.Machine.execRxRelease s
  | .rsvd5 => Sys2Proof.Machine.execRsvd5 s
  | .rsvd6 => Sys2Proof.Machine.execRsvd6 s
  | .rsvd7 => Sys2Proof.Machine.execRsvd7 s
  | .txbWrite addr data => Sys2Proof.Machine.execTxbWrite addr data s
  | .rxHuntSync => Sys2Proof.Machine.execRxHuntSync s
  | .rxHuntDiscard w => Sys2Proof.Machine.execRxHuntDiscard w s
  | .rxEscPrefix => Sys2Proof.Machine.execRxEscPrefix s
  | .rxLit w => Sys2Proof.Machine.execRxLit w s
  | .rxEscSync => Sys2Proof.Machine.execRxEscSync s
  | .rxEscEsc => Sys2Proof.Machine.execRxEscEsc s
  | .rxEscBad w => Sys2Proof.Machine.execRxEscBad w s
  | .ftMsg => Sys2Proof.Machine.execFtMsg s
  | .ftAck => Sys2Proof.Machine.execFtAck s
  | .ftOther t => Sys2Proof.Machine.execFtOther t s

end Sys2Proof.Machine
end

