-- ==== Sys2Proof/Machine/RxEngine.lean ====
section
/-! DEFINITION. The RX deframer's steps that take no byte (R126, R140, R141, R143, R144), and the link's hard error (R164). -/

namespace Sys2Proof.Machine

/-- STOP taking effect (R126): a partial frame is dropped with an event, the deframer stops. -/
def rxStop (s : State) : State :=
  let t := if s.rxState.isAccum then raiseRx .rxAbortStop s.rxState.arg s else s
  { t with rxState := .stopped, rxEsc := false, stopReq := false }

/-- A timeout the deframer takes: nothing in `HUNT` (R143), a short frame in `ACCUM` (R144). -/
def rxTimeout (s : State) : State :=
  if s.rxState.isAccum then frameAbort .rxDropShortFrame s.rxState.arg s else s

/-- Leaving `ACK_WAIT` once the Ack is out (R140): the frame is delivered, or dropped if too short for an opcode (R141). -/
def rxAckDone (s : State) : State :=
  if 2 ≤ s.rxLen.toNat then { raiseRx .rxMsgReady s.rxSeq s with rxState := .deliver }
  else frameAbort .rxDropShortMsg s.rxLen s

/-- The link's hard error (R164): fatal in every state; no effect once fatal. -/
def linkError (s : State) : State :=
  if s.fatal then s else raiseFatal .fatalLink (raiseCtl .fatalLink 0 s)

end Sys2Proof.Machine
end

