-- ==== Sys2Proof/Machine/Fetch.lean ====
section
/-! DEFINITION. What the agent whose turn it is does (R6, R125): either an instruction of the opcode table, whose word is taken
from the host port or the RX port, or a step of an engine, the link or reset that is no row of the table. -/

namespace Sys2Proof.Machine

/-- What a turn comes to: an instruction to run in a state, or an outcome already reached. -/
inductive Action where
  | run (i : Instr) (s : State)
  | done (o : Host.Outcome State Fault Refusal)
  deriving Repr

/-- The host's command port (R39, R155): a word that spells no command is refused (R81); a command is taken when `hc_ready = 1`
and stays presented otherwise (R43). `s` holds the command at the head of `hostq`; `rest` is what follows it. -/
def fetchCommand (w : CommandWord) (rest : List HostAction) (s : State) : Action :=
  match decode s.cfg (.cw w) with
  | .reject _ => .done (.refused (.notACommand w))
  | .instr i => if s.hcReady (commandCode w) then .run i { s with hostq := rest } else .done (.next s)

/-- The host's turn: its next action (R83). -/
def hostTurn (s : State) : Action :=
  match s.hostq with
  | [] => .done (.next s)
  | .command w :: rest => fetchCommand w rest s
  | .txbWrite w :: rest => .run (decodeTxbWrite w) { s with hostq := rest }
  | .rxbRead addr :: rest => .done (.next (readRxb addr { s with hostq := rest }))

/-- The RX port (R36): what the link offers is taken in a context; nothing offered, no step. DESIGN CHOICE (log entry 22): a timeout
that is not taken, `rx_ready` being 0, stays at the link's head, as R36 says of a byte. -/
def rxPort (ctx : RxContext) (offered : Bool) (s : State) : Action :=
  match offered, s.linkq with
  | true, .byte w :: rest => .run (decodeRxByte s.cfg ctx w) { s with linkq := rest }
  | true, .timeout :: rest => .done (.next (rxTimeout { s with linkq := rest }))
  | true, [] => .done (.next s)
  | false, _ => .done (.next s)

/-- The RX engine's turn, by the table of R125: STOP first, then what the link offers, then leaving `ACK_WAIT`. -/
def rxTurn (offered : Bool) (s : State) : Action :=
  if s.fatal then .done (.next s)
  else
    match s.rxContext with
    | some ctx => if s.stopReq then .done (.next (rxStop s)) else rxPort ctx offered s
    | none =>
      if s.rxState == .ackWait && !s.ackReq then .done (.next (rxAckDone s)) else .done (.next s)

/-- One turn. -/
def turn (t : Turn) (s : State) : Action :=
  match t with
  | .reset => .done (.next (applyReset s))
  | .linkErr => .done (.next (linkError s))
  | .host => hostTurn s
  | .rx offered => rxTurn offered s
  | .tx ready => .done (txStep ready s)

/-- The next action: the head of the schedule has its turn; with an empty schedule no agent moves (log entry 2). -/
def nextAction (s : State) : Action :=
  match s.sched with
  | [] => .done (.next (beginStep s))
  | t :: rest => turn t { beginStep s with sched := rest }

/-- The inputs of one hardware clock put on the script in the order of R185: `rst` overrides everything; a clock with `link_err`
performs no other step; a TXBUF write comes before a host command (R155). -/
def State.placeClock (s : State) (rst linkErr : Bool) (write : Option TxbWord) (command : Option CommandWord) : State :=
  if rst then { s with sched := .reset :: s.sched }
  else if linkErr then { s with sched := .linkErr :: s.sched }
  else
    let actions := (write.map HostAction.txbWrite).toList ++ (command.map HostAction.command).toList
    { s with hostq := actions ++ s.hostq, sched := actions.map (fun _ => Turn.host) ++ s.sched }

/-! ## Placing one instruction before the machine -/

/-- A command presented where it will be taken at once: if the slot is busy and the command waits for it, the slot is emptied. -/
def presentCommand (w : CommandWord) (s : State) : State :=
  let t := { s with hostq := .command w :: s.hostq, sched := .host :: s.sched }
  if s.hcReady (commandCode w) then t
  else { t with msgPending := false, txKind := .none, txRem := [] }

/-- A wire byte offered to a deframer that takes bytes in the given context. -/
def presentRxByte (ctx : RxContext) (w : Byte) (s : State) : State :=
  let t := { s with fatal := false, fatalCause := 0, stopReq := false, linkq := .byte w :: s.linkq, sched := .rx true :: s.sched }
  match ctx with
  | .hunt => { t with rxState := .hunt, rxEsc := false }
  | .plain => { t with rxState := if s.rxState.isAccum then s.rxState else .ver, rxEsc := false }
  | .escaped => { t with rxState := if s.rxState.isAccum then s.rxState else .ver, rxEsc := true }

/-- A frame of type `t` whose checksum byte is the next byte offered: sum 0, checksum byte 0, so the residual is 0. -/
def presentFrameType (t : Byte) (s : State) : State :=
  { presentRxByte .plain 0 s with rxState := .cksum, rxSum := 0, rxType := t }

/-- The instruction word put where the next step takes it. -/
def presentWord (w : InstrWord) (s : State) : State :=
  match w with
  | .cw w => presentCommand w s
  | .tw w => { s with hostq := .txbWrite w :: s.hostq, sched := .host :: s.sched }
  | .rxb ctx w => presentRxByte ctx w s
  | .ft t => presentFrameType t s

end Sys2Proof.Machine
end

