-- ==== Sys2Proof/Machine/Step.lean ====
section
/-! DEFINITION. One step of the machine: the agent whose turn it is acts, and where that is an instruction, `exec` runs it. -/

namespace Sys2Proof.Machine

/-- What an action comes to: an instruction is run by `exec`. -/
def runAction : Action → Host.Outcome State Fault Refusal
  | .run i t => exec i t
  | .done o => o

/-- One step. -/
def step (s : State) : Host.Outcome State Fault Refusal := runAction (nextAction s)

/-- A table word of `nbits` bits put where the next step takes it (log entry 7): a command or TXBUF write at the head of the host's
actions, a byte at the head of the link's, with the context its row names; and the turn of the agent that takes it. -/
def State.withFetchWord (s : State) (nbits w : Nat) : State :=
  match nbits with
  | 32 => presentWord (.cw (BitVec.ofNat 32 w)) s
  | 16 => presentWord (.tw (BitVec.ofNat 16 w)) s
  | 8 => presentWord (tableByteWord s.cfg (BitVec.ofNat 8 w)) s
  | _ => s

end Sys2Proof.Machine
end

