-- ==== Sys2Proof/Safety.lean ====
section
/-! DEFINITION. The terms claims are stated in: the ends of a run (R208), the invariant of the registers (R22 to R31), the logical
byte an instruction brings (R128), what a stream looks like once stuffed (R101), and a receiver fed with wire bytes (R100). -/

namespace Sys2Proof.Machine

/-! ## The end of a run (R208) -/

/-- The TX engine is idle (R208). -/
def State.txIdle (s : State) : Bool := s.txKind == .none && !s.msgPending && !s.ackReq

/-- The receiver waits for the link or the host (R208): in `HUNT` with nothing offered and no STOP to take, in `STOPPED` or in
`DELIVER`. DESIGN CHOICE (log entry 17): "nothing offered" is read as nothing left in `linkq`, all that the link will ever offer, since
State says only in an RX turn whether the link offers its head then. -/
def State.rxAtRest (s : State) : Bool :=
  (s.rxState == .hunt && s.linkq.isEmpty && !s.stopReq) || s.rxState == .stopped || s.rxState == .deliver

/-- Quiescent (R208): the TX engine idle and the receiver at rest. -/
def State.quiescent (s : State) : Bool := s.txIdle && s.rxAtRest

/-- Good: not fatal (R208); a model fault is no state but an outcome of a step. -/
def State.good (s : State) : Bool := !s.fatal

/-! ## The invariant of the registers -/

/-- What the registers keep to in every run, from spec/10_state.md and the rules that write them. -/
structure State.Inv (s : State) : Prop where
  /-- TXBUF is in canonical form, indices below `TXBUF_SIZE` (R33, R50) -/
  txbufWf : Memory.wf s.cfg.txbufSize s.txbuf = true
  /-- RXBUF is in canonical form, indices below `RXBUF_SIZE` (R34, R50) -/
  rxbufWf : Memory.wf s.cfg.rxbufSize s.rxbuf = true
  /-- `rx_esc` is 0 whenever `rx_state` is not in `ACCUM` (R22) -/
  escInFrame : s.rxEsc = true → s.rxState.isAccum = true
  /-- in `BODY`, `rx_idx` is below `rx_len` (R25) -/
  idxBelowLen : s.rxState = .body → s.rxIdx.toNat < s.rxLen.toNat
  /-- body bytes taken so far are in RXBUF (R34, R135) -/
  bodyStored : s.rxState = .body → ∀ i < s.rxIdx.toNat, (Memory.read s.rxbuf i).isSome = true
  /-- the whole body is in RXBUF from the checksum to the release (R34, R60) -/
  frameStored : s.rxState = .cksum ∨ s.rxState = .ackWait ∨ s.rxState = .deliver →
    ∀ i < s.rxLen.toNat, (Memory.read s.rxbuf i).isSome = true
  /-- only a Message with a zero residual is acknowledged and delivered (R136, R137, R151) -/
  validated : s.rxState = .ackWait ∨ s.rxState = .deliver → s.rxType = s.cfg.typeMsg ∧ s.rxSum = 0
  /-- a delivered frame has an opcode (R140) -/
  hasOpcode : s.rxState = .deliver → 2 ≤ s.rxLen.toNat
  /-- a STOP request is held only while the receiver runs (R26, R157) -/
  stopWhileRunning : s.stopReq = true → s.rxState ≠ .stopped
  /-- an Ack is requested only in `ACK_WAIT` (R27) -/
  ackWhileWaiting : s.ackReq = true → s.rxState = .ackWait
  /-- the Ack in flight is the one requested and echoes `rx_seq` (R24, R109) -/
  ackInFlight : s.txKind = .ack → s.ackReq = true ∧ s.txSeq = s.rxSeq
  /-- a queued Message fits, and none is queued behind one in flight (R29, R43) -/
  slot : s.msgPending = true → s.msgLen.toNat ≤ s.cfg.maxPayload ∧ s.txKind ≠ .msg
  /-- `tx_rem` is empty whenever `tx_kind = NONE` (R30) -/
  idleEmpty : s.txKind = .none → s.txRem = []
  /-- `fatal_cause` is 0 while not fatal, and one of the two causes while fatal (R31, R181) -/
  cause : if s.fatal = true then s.fatalCause = 0xD ∨ s.fatalCause = 0xE else s.fatalCause = 0

/-! ## Bytes on the wire -/

/-- Instruction `i` brings the deframer, in state `s`, the logical byte `b` (R128): a byte as it stands, or the meaning of a
substitute. -/
def bringsByte (s : State) (i : Instr) (b : Byte) : Prop :=
  (i = .rxLit b ∧ s.rxTakes .plain = true) ∨
  (i = .rxEscSync ∧ b = s.cfg.sync ∧ s.rxTakes .escaped = true) ∨
  (i = .rxEscEsc ∧ b = s.cfg.esc ∧ s.rxTakes .escaped = true)

/-- After a frame's first byte: no unescaped `SYNC`, and every `ESC` that starts a pair is followed at once by one of the two
substitutes (R101). -/
def escapedStream (c : Config) : List Byte → Prop
  | [] => True
  | [b] => b ≠ c.esc ∧ b ≠ c.sync
  | b :: s :: rest =>
    if b = c.esc then (s = c.subSync ∨ s = c.subEsc) ∧ escapedStream c rest
    else b ≠ c.sync ∧ escapedStream c (s :: rest)

/-- Un-stuffing a whole stream after its first byte, one level (R77, R128). -/
def unstuffAll (c : Config) : List Byte → Option (List Byte)
  | [] => some []
  | [b] => if b = c.esc then none else some [b]
  | b :: s :: rest =>
    if b = c.esc then
      match unstuff c s, unstuffAll c rest with
      | some l, some ls => some (l :: ls)
      | _, _ => none
    else (unstuffAll c (s :: rest)).map (b :: ·)

/-- `s` with wire bytes at the head of what the link offers and as many RX turns at the head of the schedule. -/
def State.fedWith (s : State) (ws : List Byte) : State :=
  { s with linkq := ws.map LinkItem.byte ++ s.linkq, sched := List.replicate ws.length (.rx true) ++ s.sched }

/-! ## Frames -/

/-- The registers of the RX deframer and the Ack request (R21 to R25, R27). -/
def sameReceiver (s t : State) : Prop :=
  t.rxState = s.rxState ∧ t.rxEsc = s.rxEsc ∧ t.rxSum = s.rxSum ∧ t.rxVer = s.rxVer ∧ t.rxMod = s.rxMod ∧ t.rxSeq = s.rxSeq ∧
  t.rxType = s.rxType ∧ t.rxLen = s.rxLen ∧ t.rxIdx = s.rxIdx ∧ t.ackReq = s.ackReq

/-- The sequence counter, the message slot and the TX engine (R28 to R30). -/
def sameTransmitter (s t : State) : Prop :=
  t.seqNext = s.seqNext ∧ t.msgPending = s.msgPending ∧ t.msgOpcode = s.msgOpcode ∧ t.msgLen = s.msgLen ∧ t.msgSeq = s.msgSeq ∧
  t.txKind = s.txKind ∧ t.txSeq = s.txSeq ∧ t.txRem = s.txRem

/-- The fatal flag and its cause (R31). -/
def sameFatal (s t : State) : Prop := t.fatal = s.fatal ∧ t.fatalCause = s.fatalCause

/-- Every byte of TXBUF reads as before, its `txb_written` bit included (R33, R35). -/
def sameTxbuf (s t : State) : Prop := ∀ a : Nat, Memory.read t.txbuf a = Memory.read s.txbuf a

/-- Every byte of RXBUF reads as before (R34). -/
def sameRxbuf (s t : State) : Prop := ∀ a : Nat, Memory.read t.rxbuf a = Memory.read s.rxbuf a

/-- The RX event port and its history (R42, R175). -/
def sameRxEvents (s t : State) : Prop := t.rxEv = s.rxEv ∧ t.rxEvents = s.rxEvents

/-- The TX event port and its history (R42, R175). -/
def sameTxEvents (s t : State) : Prop := t.txEv = s.txEv ∧ t.txEvents = s.txEvents

/-- The control event port and its history (R42, R175). -/
def sameCtlEvents (s t : State) : Prop := t.ctlEv = s.ctlEv ∧ t.ctlEvents = s.ctlEvents

/-- The configuration (R45), the environment's script and the model's records. -/
def sameSurroundings (s t : State) : Prop :=
  t.cfg = s.cfg ∧ t.linkq = s.linkq ∧ t.hostq = s.hostq ∧ t.sched = s.sched ∧ t.ticks = s.ticks ∧ t.linkOut = s.linkOut ∧
  t.hostReads = s.hostReads

end Sys2Proof.Machine
end

