-- ==== Sys2Proof/Certificates/Slice0/Obligations.lean ====
section
/-! DEFINITION. The statements for the provers, each from the numbered rules of the spec: what an instruction, an engine step or
the whole machine does. They state and prove nothing. -/

open Sys2Proof Sys2Proof.Machine

/-! ## Host commands -/

/-- R159, R156, R157: NOP changes nothing, in every state. START moves `STOPPED` to `HUNT`, leaves a running receiver where it is,
cancels a STOP not yet taken, and touches nothing else. STOP sets the request unless the receiver is `STOPPED`, where it has no
effect; nothing else changes. -/
def Obligations.NopStartStopEffects : Prop :=
  (∀ s : State, exec .nop s = .next s) ∧
  (∀ s : State, s.fatal = false →
    exec .start s =
      .next { s with rxState := if s.rxState = .stopped then .hunt else s.rxState, stopReq := false }) ∧
  (∀ s : State, s.fatal = false →
    exec .stop s = .next (if s.rxState = .stopped then s else { s with stopReq := true }))

/-- R106: an accepted SEND, of at most `MAX_PAYLOAD` bytes, fills the message slot with its operands and the counter's value, advances
the counter by 1 modulo 256 and makes `st_tx_busy` 1; while a Message is queued or in flight the command is not ready and changes
nothing. The rule writes 253; that another `MAX_PAYLOAD` moves the limit is the model's reading (log entry 5, DEDUCED from R8 and item
I1). -/
def Obligations.SendFillsSlotOrWaits : Prop :=
  ∀ (s : State) (opcode : Opcode) (len : Byte), s.fatal = false → len.toNat ≤ s.cfg.maxPayload →
    (s.txMsgBusy = false →
      ∃ t, exec (.send opcode len) s = .next t ∧ t.stTxBusy = true ∧
        t = { s with msgOpcode := opcode, msgLen := len, msgSeq := s.seqNext, seqNext := s.seqNext + 1, msgPending := true }) ∧
    (s.txMsgBusy = true → s.hcReady 3 = false ∧ exec (.send opcode len) s = .next s)

/-- R107: a SEND of more than `MAX_PAYLOAD` bytes is rejected with `CMD_REJECT_OVERSIZE` and its length, and changes nothing else; it
waits like the accepted form. The rule writes 254 or 255; that another `MAX_PAYLOAD` moves the limit is the model's reading (log entry 5,
DEDUCED from R8 and item I1). -/
def Obligations.OversizeSendIsRejected : Prop :=
  ∀ (s : State) (len : Byte), s.fatal = false → s.cfg.maxPayload < len.toNat →
    (s.txMsgBusy = false →
      exec (.sendOversize len) s =
        .next { s with ctlEv := some ⟨.cmdRejectOversize, len⟩, ctlEvents := s.ctlEvents ++ [⟨.cmdRejectOversize, len⟩] }) ∧
    (s.txMsgBusy = true → s.hcReady 3 = false ∧ exec (.sendOversize len) s = .next s)

/-- R158: RX_RELEASE in `DELIVER` goes back to `HUNT` and ends `rx_frame_valid`; anywhere else it raises `CMD_ILLEGAL` with 0x04.
Nothing else changes. -/
def Obligations.ReleaseHuntsOrIsIllegal : Prop :=
  ∀ s : State, s.fatal = false →
    (s.rxState = .deliver →
      ∃ t, exec .rxRelease s = .next t ∧ t.rxFrameValid = false ∧ t = { s with rxState := .hunt }) ∧
    (s.rxState ≠ .deliver →
      exec .rxRelease s =
        .next { s with ctlEv := some ⟨.cmdIllegal, 4⟩, ctlEvents := s.ctlEvents ++ [⟨.cmdIllegal, 4⟩] })

/-- R160: a reserved command code raises `CMD_ILLEGAL` with the code and changes nothing else, whatever the word's length and opcode
fields say; a word with CW[31:27] ≠ 0 is no command. -/
def Obligations.ReservedCodesRaiseIllegal : Prop :=
  (∀ (c : Config) (w : CommandWord),
    (commandReserved w = 0#5 → commandCode w = 5#3 → decode c (.cw w) = .instr .rsvd5) ∧
    (commandReserved w = 0#5 → commandCode w = 6#3 → decode c (.cw w) = .instr .rsvd6) ∧
    (commandReserved w = 0#5 → commandCode w = 7#3 → decode c (.cw w) = .instr .rsvd7) ∧
    (commandReserved w ≠ 0#5 → decode c (.cw w) = .reject (.notACommand w))) ∧
  ∀ s : State, s.fatal = false →
    exec .rsvd5 s = .next { s with ctlEv := some ⟨.cmdIllegal, 5⟩, ctlEvents := s.ctlEvents ++ [⟨.cmdIllegal, 5⟩] } ∧
    exec .rsvd6 s = .next { s with ctlEv := some ⟨.cmdIllegal, 6⟩, ctlEvents := s.ctlEvents ++ [⟨.cmdIllegal, 6⟩] } ∧
    exec .rsvd7 s = .next { s with ctlEv := some ⟨.cmdIllegal, 7⟩, ctlEvents := s.ctlEvents ++ [⟨.cmdIllegal, 7⟩] }

/-- R165: while fatal, every command is accepted, and every command and TXBUF write has no effect and no event; the RXBUF read and
the delivery outputs are unspecified, and that they are the free values is the model's choice (log entry 4); and no step but reset
leaves the state. -/
def Obligations.FatalStateDiscardsCommandsAndWrites : Prop :=
  ∀ (s : State) (opcode : Opcode) (len addr data : Byte), s.fatal = true →
    (∀ code, s.hcReady code = true) ∧
    (∀ i ∈ [Instr.nop, .start, .stop, .send opcode len, .sendOversize len, .rxRelease, .rsvd5, .rsvd6, .rsvd7,
        .txbWrite addr data],
      exec i s = .next s) ∧
    s.rxFrameValid = false ∧ s.rxbRdata addr = Config.freeRxbRdata s.ticks addr ∧ s.rxOpcode = Config.freeRxOpcode s.ticks ∧
    s.rxPlen = Config.freeRxPlen s.ticks ∧ s.rxHdrSeq = Config.freeRxHdrSeq s.ticks ∧
    s.rxHdrVer = Config.freeRxHdrVer s.ticks ∧ s.rxHdrMod = Config.freeRxHdrMod s.ticks ∧
    (∀ t, (∀ turns, s.sched ≠ .reset :: turns) → step s = .next t → t.fatal = true)

/-- R161, R162: a TXBUF write with no Message queued or in flight and an index inside TXBUF stores its byte, marks it written, and
leaves every other byte and register. Otherwise it is refused with `TXB_WRITE_REFUSED` and its index; TXBUF and its written bits stay, as
does everything else. The rules write 252; that the limit follows another `MAX_PAYLOAD` is the model's reading (log entry 5, DEDUCED from
R8, R33 and item I1). -/
def Obligations.TxbWriteStoresOrIsRefused : Prop :=
  ∀ (s : State) (addr data : Byte), s.fatal = false →
    (s.txMsgBusy = false → addr.toNat < s.cfg.maxPayload →
      ∃ t, exec (.txbWrite addr data) s = .next t ∧
        (∀ a : Nat, Memory.read t.txbuf a = if a = addr.toNat then some data else Memory.read s.txbuf a) ∧
        t.txbWritten addr.toNat = true ∧ t = { s with txbuf := t.txbuf }) ∧
    (s.txMsgBusy = true ∨ s.cfg.maxPayload ≤ addr.toNat →
      exec (.txbWrite addr data) s =
        .next { s with ctlEv := some ⟨.txbWriteRefused, addr⟩, ctlEvents := s.ctlEvents ++ [⟨.txbWriteRefused, addr⟩] })

/-- The frame of the command rows: what each leaves unchanged, every buffer byte included. -/
def Obligations.CommandRowsFrame : Prop :=
  ∀ (i : Instr) (s t : State) (opcode : Opcode) (len : Byte),
    i ∈ [Instr.nop, .start, .stop, .send opcode len, .sendOversize len, .rxRelease, .rsvd5, .rsvd6, .rsvd7] →
    exec i s = .next t →
      sameTxbuf s t ∧ sameRxbuf s t ∧ sameFatal s t ∧ sameSurroundings s t ∧ sameRxEvents s t ∧ sameTxEvents s t ∧
      sameReceiver { s with rxState := t.rxState } t ∧
      sameTransmitter { s with seqNext := t.seqNext, msgPending := t.msgPending, msgOpcode := t.msgOpcode,
                               msgLen := t.msgLen, msgSeq := t.msgSeq } t ∧
      (i ≠ .start → i ≠ .rxRelease → t.rxState = s.rxState) ∧
      (i ≠ .start → i ≠ .stop → t.stopReq = s.stopReq) ∧
      (i ≠ .send opcode len → sameTransmitter s t) ∧
      (i ∈ [Instr.nop, .start, .stop, .send opcode len] → sameCtlEvents s t)

/-- The frame of TXB_WRITE: every byte of TXBUF but the one at the index written to, every byte of RXBUF, and every register. -/
def Obligations.TxbWriteFrame : Prop :=
  ∀ (s t : State) (addr data : Byte), exec (.txbWrite addr data) s = .next t →
    (∀ a : Nat, a ≠ addr.toNat → Memory.read t.txbuf a = Memory.read s.txbuf a) ∧
    sameRxbuf s t ∧ sameReceiver s t ∧ t.stopReq = s.stopReq ∧ sameTransmitter s t ∧ sameFatal s t ∧ sameSurroundings s t ∧
    sameRxEvents s t ∧ sameTxEvents s t ∧ (sameTxbuf s t ∨ sameCtlEvents s t)

/-! ## Wire bytes -/

/-- R127: in `HUNT` the byte `SYNC` is the row that starts a frame, and any other byte is the row that leaves the whole state as it is,
with no event. -/
def Obligations.HuntStartsFrameOnSyncOnly : Prop :=
  ∀ (s : State) (w : Byte), s.rxTakes .hunt = true →
    exec .rxHuntSync s = .next { s with rxSum := s.cfg.sync, rxEsc := false, rxState := .ver } ∧
    exec (.rxHuntDiscard w) s = .next s ∧
    decodeRxByte s.cfg .hunt w = if w = s.cfg.sync then .rxHuntSync else .rxHuntDiscard w

/-- R130 to R133: in `VER`, `MOD`, `SEQ` and `TYPE` a logical byte, as it stands or through an escape, is stored unchecked in its
register and the deframer moves on; the running sum takes it in. -/
def Obligations.HeaderBytesAreStored : Prop :=
  ∀ (s : State) (i : Instr) (b : Byte), bringsByte s i b →
    (s.rxState = .ver → exec i s = .next { s with rxEsc := false, rxSum := s.rxSum + b, rxVer := b, rxState := .mod }) ∧
    (s.rxState = .mod → exec i s = .next { s with rxEsc := false, rxSum := s.rxSum + b, rxMod := b, rxState := .seq }) ∧
    (s.rxState = .seq → exec i s = .next { s with rxEsc := false, rxSum := s.rxSum + b, rxSeq := b, rxState := .type }) ∧
    (s.rxState = .type → exec i s = .next { s with rxEsc := false, rxSum := s.rxSum + b, rxType := b, rxState := .len })

/-- R134: the length byte is stored, the body index cleared, and 0 leads to the checksum, any other value to the body. -/
def Obligations.LengthByteLeadsToBodyOrChecksum : Prop :=
  ∀ (s : State) (i : Instr) (b : Byte), bringsByte s i b → s.rxState = .len →
    exec i s = .next { s with
      rxEsc := false, rxSum := s.rxSum + b, rxLen := b, rxIdx := 0, rxState := if b = 0#8 then .cksum else .body }

/-- R135: a body byte at an index inside RXBUF goes to `RXBUF[rx_idx]` and no other byte of RXBUF changes; the last one leads to
the checksum, any other advances the index. RXBUF ends at `MAX_BODY` (R34; that it does so for another value than 255 is log entry 5,
DEDUCED). -/
def Obligations.BodyByteGoesToRxbuf : Prop :=
  ∀ (s : State) (i : Instr) (b : Byte), bringsByte s i b → s.rxState = .body → s.rxIdx.toNat < s.cfg.maxBody →
    ∃ t, exec i s = .next t ∧
      (∀ a : Nat, Memory.read t.rxbuf a = if a = s.rxIdx.toNat then some b else Memory.read s.rxbuf a) ∧
      t = { s with
        rxEsc := false, rxSum := s.rxSum + b, rxbuf := t.rxbuf
        rxState := if s.rxIdx + 1 = s.rxLen then .cksum else .body
        rxIdx := if s.rxIdx + 1 = s.rxLen then s.rxIdx else s.rxIdx + 1 }

/-- R136: a checksum byte that leaves a nonzero sum drops the frame with the residual; one that leaves 0 dispatches on the frame
type, which is to run that type's row. -/
def Obligations.ChecksumByteDropsOrDispatches : Prop :=
  ∀ (s : State) (i : Instr) (b : Byte), bringsByte s i b → s.rxState = .cksum →
    (s.rxSum + b ≠ 0#8 →
      exec i s = .next { s with
        rxEsc := false, rxSum := s.rxSum + b, rxState := .hunt, rxEv := some ⟨.rxDropChecksum, s.rxSum + b⟩
        rxEvents := s.rxEvents ++ [⟨.rxDropChecksum, s.rxSum + b⟩] }) ∧
    (s.rxSum + b = 0#8 →
      exec i s = exec (decodeFrameType s.cfg s.rxType) { s with rxEsc := false, rxSum := 0 })

/-- R128, R129: inside a frame `ESC` sets `rx_esc` and yields no logical byte; nothing else changes. A byte after `ESC` that is no
substitute drops the frame with `RX_DROP_BAD_ESCAPE`, or, with `ESCAPE_ERROR_FATAL`, enters the fatal state with `FATAL_BAD_ESCAPE`;
the event carries the byte and nothing else changes. -/
def Obligations.EscapeArmsAndBadSubstituteEndsFrame : Prop :=
  (∀ s : State, s.rxTakes .plain = true → exec .rxEscPrefix s = .next { s with rxEsc := true }) ∧
  (∀ (s : State) (w : Byte), s.rxTakes .escaped = true → w ≠ s.cfg.subSync → w ≠ s.cfg.subEsc →
    (s.cfg.escapeErrorFatal = false →
      exec (.rxEscBad w) s = .next { s with
        rxEsc := false, rxState := .hunt, rxEv := some ⟨.rxDropBadEscape, w⟩
        rxEvents := s.rxEvents ++ [⟨.rxDropBadEscape, w⟩] }) ∧
    (s.cfg.escapeErrorFatal = true →
      exec (.rxEscBad w) s = .next { s with
        rxEsc := false, fatal := true, fatalCause := 0xE, rxEv := some ⟨.fatalBadEscape, w⟩
        rxEvents := s.rxEvents ++ [⟨.fatalBadEscape, w⟩] }))

/-- The frame of the wire-byte rows: RXBUF changes at most at `rx_idx` and only in `BODY`; TXBUF, the transmitter, the STOP request,
the other event ports and the surroundings do not change. A row whose guard is false does not happen (R13). Its one stop, the model's
own (log entry 10): a body byte at an index outside RXBUF. -/
def Obligations.WireByteRowsFrame : Prop :=
  (∀ (s : State) (ctx : RxContext) (w : Byte), s.rxTakes ctx = false → exec (decodeRxByte s.cfg ctx w) s = .next s) ∧
  (∀ (s : State) (i : Instr) (b : Byte), bringsByte s i b → s.rxState = .body → s.cfg.maxBody ≤ s.rxIdx.toNat →
    exec i s = .fault .rxbufIndex) ∧
  ∀ (i : Instr) (s t : State) (w : Byte),
    i ∈ [Instr.rxHuntSync, .rxHuntDiscard w, .rxEscPrefix, .rxLit w, .rxEscSync, .rxEscEsc, .rxEscBad w] →
    exec i s = .next t →
      (∀ a : Nat, (a ≠ s.rxIdx.toNat ∨ s.rxState ≠ .body) → Memory.read t.rxbuf a = Memory.read s.rxbuf a) ∧
      sameTxbuf s t ∧ sameTransmitter s t ∧ t.stopReq = s.stopReq ∧ sameTxEvents s t ∧ sameCtlEvents s t ∧
      sameSurroundings s t ∧ (i ≠ .rxEscBad w → sameFatal s t) ∧
      (s.rxState ≠ .ver → t.rxVer = s.rxVer) ∧ (s.rxState ≠ .mod → t.rxMod = s.rxMod) ∧
      (s.rxState ≠ .seq → t.rxSeq = s.rxSeq) ∧ (s.rxState ≠ .type → t.rxType = s.rxType) ∧
      (s.rxState ≠ .len → t.rxLen = s.rxLen) ∧ (s.rxState ≠ .len → s.rxState ≠ .body → t.rxIdx = s.rxIdx) ∧
      (s.rxState ≠ .cksum → t.ackReq = s.ackReq)

/-! ## Frame types -/

/-- R137, R138, R139: a valid Message requests its Ack and waits for it, taking no bytes meanwhile. A valid Ack is reported with its
sequence number and otherwise ignored, whatever its length. A valid frame of any other type is dropped with its type, as every frame
abort with `rx_esc` cleared (R178; log entry 16, DEDUCED: R139 itself does not write it). The last two request no Ack, and none changes
anything else. -/
def Obligations.ValidFrameIsDispatchedByType : Prop :=
  ∀ (s : State) (ty : Byte), s.atDispatch = true → s.rxType = ty →
    (ty = s.cfg.typeMsg →
      ∃ t, exec .ftMsg s = .next t ∧ t.rxReady = false ∧ t = { s with rxState := .ackWait, ackReq := true }) ∧
    (ty = s.cfg.typeAck →
      exec .ftAck s = .next { s with
        rxState := .hunt, rxEv := some ⟨.rxAckSeen, s.rxSeq⟩, rxEvents := s.rxEvents ++ [⟨.rxAckSeen, s.rxSeq⟩] }) ∧
    (ty ≠ s.cfg.typeMsg → ty ≠ s.cfg.typeAck →
      exec (.ftOther ty) s = .next { s with
        rxState := .hunt, rxEsc := false, rxEv := some ⟨.rxDropUnknownType, ty⟩
        rxEvents := s.rxEvents ++ [⟨.rxDropUnknownType, ty⟩] })

/-- The frame of the frame-type rows: both buffers, the transmitter, the header registers and the surroundings stay; only FT_MSG
changes the Ack request, and it raises no event. A row whose guard is false does not happen (R13). -/
def Obligations.FrameTypeRowsFrame : Prop :=
  (∀ (s : State) (ty : Byte), s.atDispatch = false ∨ s.rxType ≠ ty → exec (decodeFrameType s.cfg ty) s = .next s) ∧
  ∀ (i : Instr) (s t : State) (ty : Byte), i ∈ [Instr.ftMsg, .ftAck, .ftOther ty] → exec i s = .next t →
    sameRxbuf s t ∧ sameTxbuf s t ∧ sameTransmitter s t ∧ sameFatal s t ∧ t.stopReq = s.stopReq ∧ sameTxEvents s t ∧
    sameCtlEvents s t ∧ sameSurroundings s t ∧
    sameReceiver { s with rxState := t.rxState, rxEsc := t.rxEsc, ackReq := t.ackReq } t ∧
    (i ≠ .ftMsg → t.ackReq = s.ackReq) ∧ (i = .ftMsg → sameRxEvents s t ∧ t.rxEsc = s.rxEsc)

/-! ## Steps -/

/-- A step runs the decoded instruction: the presented command when it is ready, the presented TXBUF write, the offered byte in the
deframer's context. Around it the step takes the turn off the schedule and the word off its port, clears the event ports and counts
itself. -/
def Obligations.StepRunsDecodedInstruction : Prop :=
  (∀ (s : State) (w : CommandWord) (i : Instr) (acts : List HostAction) (turns : List Turn),
    s.sched = .host :: turns → s.hostq = .command w :: acts → decode s.cfg (.cw w) = .instr i →
    s.hcReady (commandCode w) = true →
    step s = exec i { beginStep s with sched := turns, hostq := acts }) ∧
  (∀ (s : State) (w : TxbWord) (acts : List HostAction) (turns : List Turn),
    s.sched = .host :: turns → s.hostq = .txbWrite w :: acts →
    step s = exec (decodeTxbWrite w) { beginStep s with sched := turns, hostq := acts }) ∧
  (∀ (s : State) (w : Byte) (ctx : RxContext) (items : List LinkItem) (turns : List Turn),
    s.sched = .rx true :: turns → s.linkq = .byte w :: items → s.rxTakes ctx = true →
    step s = exec (decodeRxByte s.cfg ctx w) { beginStep s with sched := turns, linkq := items })

/-- R43, R81: `tx_msg_busy` is 1 exactly while a Message is queued or in flight, and `hc_ready` is 0 exactly for a SEND then, not
fatal. A presented command that is ready is taken and run; a SEND that is not waits at the head of the host's actions (log entry
13), and the step changes no register. A presented word with CW[31:27] ≠ 0 spells no command and is refused by name (log entry
14). -/
def Obligations.CommandPortHoldsSendAndRefusesNonCommands : Prop :=
  (∀ (s : State) (code : BitVec 3),
    (s.txMsgBusy = true ↔ s.msgPending = true ∨ s.txKind = .msg) ∧
    (s.hcReady code = false ↔ s.fatal = false ∧ code = 3#3 ∧ s.txMsgBusy = true)) ∧
  ∀ (s : State) (w : CommandWord) (acts : List HostAction) (turns : List Turn),
    s.sched = .host :: turns → s.hostq = .command w :: acts →
    (∀ i, decode s.cfg (.cw w) = .instr i → (s.fatal = true ∨ commandCode w ≠ 3#3 ∨ s.txMsgBusy = false) →
      step s = exec i { beginStep s with sched := turns, hostq := acts }) ∧
    (commandReserved w = 0#5 → commandCode w = 3#3 → s.fatal = false → s.txMsgBusy = true →
      ∃ t, step s = .next t ∧ t = { beginStep s with sched := turns } ∧ t.hostq = .command w :: acts) ∧
    (commandReserved w ≠ 0#5 → step s = .refused (.notACommand w))

/-- R126: with a STOP request in `HUNT` or inside a frame, the RX step takes no byte: the receiver stops, and a partial frame is
dropped with `RX_ABORT_STOP` and the state code. In `ACK_WAIT` and `DELIVER` the request is kept. -/
def Obligations.StopTakesEffectAtByteBoundary : Prop :=
  ∀ (s : State) (offered : Bool) (turns : List Turn),
    s.sched = .rx offered :: turns → s.fatal = false → s.stopReq = true →
    (s.rxState.isByteState = true →
      step s = .next { beginStep s with
        sched := turns, rxState := .stopped, rxEsc := false, stopReq := false
        rxEv := if s.rxState.isAccum then some ⟨.rxAbortStop, s.rxState.code.setWidth 8⟩ else none
        rxEvents := if s.rxState.isAccum then s.rxEvents ++ [⟨.rxAbortStop, s.rxState.code.setWidth 8⟩] else s.rxEvents }) ∧
    (s.rxState = .ackWait ∨ s.rxState = .deliver → ∃ t, step s = .next t ∧ t.stopReq = true ∧ t.rxState ≠ .stopped)

/-- R143, R144: a timeout taken in `HUNT` changes nothing; inside a frame it drops the frame with `RX_DROP_SHORT_FRAME` and the
state code. -/
def Obligations.TimeoutDropsOnlyAPartialFrame : Prop :=
  ∀ (s : State) (items : List LinkItem) (turns : List Turn),
    s.sched = .rx true :: turns → s.linkq = .timeout :: items → s.fatal = false → s.stopReq = false →
    (s.rxState = .hunt → step s = .next { beginStep s with sched := turns, linkq := items }) ∧
    (s.rxState.isAccum = true →
      step s = .next { beginStep s with
        sched := turns, linkq := items, rxState := .hunt, rxEsc := false
        rxEv := some ⟨.rxDropShortFrame, s.rxState.code.setWidth 8⟩
        rxEvents := s.rxEvents ++ [⟨.rxDropShortFrame, s.rxState.code.setWidth 8⟩] })

/-- R140, R141: in `ACK_WAIT` nothing happens while the Ack is requested; then a frame with an opcode is delivered with
`RX_MSG_READY`, a shorter one is dropped with `RX_DROP_SHORT_MSG`, as every frame abort with `rx_esc` cleared (R178; log entry 16,
DEDUCED: R141 itself does not write it). -/
def Obligations.AckWaitEndsInDeliveryOrShortDrop : Prop :=
  ∀ (s : State) (offered : Bool) (turns : List Turn),
    s.sched = .rx offered :: turns → s.fatal = false → s.rxState = .ackWait →
    (s.ackReq = true → step s = .next { beginStep s with sched := turns }) ∧
    (s.ackReq = false → 2 ≤ s.rxLen.toNat →
      step s = .next { beginStep s with
        sched := turns, rxState := .deliver, rxEv := some ⟨.rxMsgReady, s.rxSeq⟩
        rxEvents := s.rxEvents ++ [⟨.rxMsgReady, s.rxSeq⟩] }) ∧
    (s.ackReq = false → s.rxLen.toNat < 2 →
      step s = .next { beginStep s with
        sched := turns, rxState := .hunt, rxEsc := false, rxEv := some ⟨.rxDropShortMsg, s.rxLen⟩
        rxEvents := s.rxEvents ++ [⟨.rxDropShortMsg, s.rxLen⟩] })

/-- R36: `rx_ready` is 1 exactly when the block is not fatal, the deframer is in `HUNT` or inside a frame and no STOP is
requested. The RX port takes what the link offers, a byte or a timeout, exactly then; otherwise it stays at the link (a timeout
too: the model's choice, log entry 22). Where the link offers nothing, nothing moves, and in `HUNT` or inside a frame with no STOP
no register changes. -/
def Obligations.RxPortTakesExactlyWhenReady : Prop :=
  (∀ s : State, s.rxReady = true ↔
    s.fatal = false ∧ (s.rxState = .hunt ∨ s.rxState.isAccum = true) ∧ s.stopReq = false) ∧
  (∀ (s t : State) (item : LinkItem) (items : List LinkItem) (turns : List Turn),
    s.sched = .rx true :: turns → s.linkq = item :: items → step s = .next t →
    t.linkq = if s.rxReady = true then items else item :: items) ∧
  (∀ (s : State) (turns : List Turn), s.sched = .rx false :: turns →
    (∀ t, step s = .next t → t.linkq = s.linkq) ∧
    ((s.rxState = .hunt ∨ s.rxState.isAccum = true) → s.stopReq = false →
      step s = .next { beginStep s with sched := turns }))

/-- R109, R110, R111: an idle TX engine with an Ack requested loads the Ack frame of `rx_seq`, whether or not a Message waits. With no
Ack requested, a queued Message whose payload bytes have all been written is loaded: the frame of its slot and of
`TXBUF[0..msg_len)`, stuffed; the slot empties. -/
def Obligations.LoadTakesAckBeforeMessage : Prop :=
  ∀ (s : State) (payload : List Byte) (ready : Bool) (turns : List Turn),
    s.sched = .tx ready :: turns → s.fatal = false → s.txKind = .none →
    (s.ackReq = true →
      step s = .next { beginStep s with
        sched := turns, txKind := .ack, txSeq := s.rxSeq, txRem := wire s.cfg (frameAck s.cfg s.rxSeq) }) ∧
    (s.ackReq = false → s.msgPending = true → payload.length = s.msgLen.toNat →
      (∀ i < s.msgLen.toNat, Memory.read s.txbuf i = payload[i]?) →
      step s = .next { beginStep s with
        sched := turns, txKind := .msg, txSeq := s.msgSeq, msgPending := false
        txRem := wire s.cfg (frameMsg s.cfg s.msgSeq s.msgOpcode payload) })

/-- R118: LOAD of a Message that would read a TXBUF byte never written is the model fault `UnwrittenTxbuf`. -/
def Obligations.UnwrittenPayloadIsAFault : Prop :=
  ∀ (s : State) (i : Nat) (ready : Bool) (turns : List Turn),
    s.sched = .tx ready :: turns → s.fatal = false → s.txKind = .none → s.ackReq = false → s.msgPending = true →
    i < s.msgLen.toNat → s.txbWritten i = false →
    step s = .fault .unwrittenTxbuf

/-- R112: EMIT hands the head of `tx_rem` to a link that accepts, and offers the same byte again to one that does not. -/
def Obligations.EmitHandsHeadToLink : Prop :=
  ∀ (s : State) (b : Byte) (rest : List Byte) (ready : Bool) (turns : List Turn),
    s.sched = .tx ready :: turns → s.fatal = false → s.txKind ≠ .none → s.txRem = b :: rest →
    s.txValid = true ∧ s.txData = b ∧
    step s = .next (if ready = true
      then { beginStep s with sched := turns, txRem := rest, linkOut := s.linkOut ++ [b] }
      else { beginStep s with sched := turns })

/-- R113, R114: with the whole frame handed over, the TX engine goes idle and raises `TX_ACK_DONE` (clearing `ack_req`) or
`TX_MSG_DONE`, with the frame's sequence number. -/
def Obligations.CompleteEndsTheFrame : Prop :=
  ∀ (s : State) (ready : Bool) (turns : List Turn),
    s.sched = .tx ready :: turns → s.fatal = false → s.txRem = [] →
    (s.txKind = .ack →
      step s = .next { beginStep s with
        sched := turns, ackReq := false, txKind := .none, txEv := some ⟨.txAckDone, s.txSeq⟩
        txEvents := s.txEvents ++ [⟨.txAckDone, s.txSeq⟩] }) ∧
    (s.txKind = .msg →
      step s = .next { beginStep s with
        sched := turns, txKind := .none, txEv := some ⟨.txMsgDone, s.txSeq⟩
        txEvents := s.txEvents ++ [⟨.txMsgDone, s.txSeq⟩] })

/-- R164, R182: a link error is fatal in every state, with `FATAL_LINK` on the control port; every other register is frozen, and the
outputs are those of the fatal state. A link error while fatal has no effect. -/
def Obligations.LinkErrorEntersFatalState : Prop :=
  ∀ (s : State) (turns : List Turn), s.sched = .linkErr :: turns →
    (s.fatal = true → step s = .next { beginStep s with sched := turns }) ∧
    (s.fatal = false →
      ∃ t, step s = .next t ∧
        t = { beginStep s with
          sched := turns, fatal := true, fatalCause := 0xD, ctlEv := some ⟨.fatalLink, 0⟩
          ctlEvents := s.ctlEvents ++ [⟨.fatalLink, 0⟩] } ∧
        t.rxReady = false ∧ t.txValid = false ∧ t.rxFrameValid = false ∧ t.stFatal = true ∧ t.stFatalCause = 0xD ∧
        ∀ code, t.hcReady code = true)

/-- R195, R44: reset from any state gives every register its reset value, raises no event, and leaves the link's offered bytes.
The model's choices in it: both buffers hold no value afterwards (log entries 11 and 12; R195 says unspecified), and the event
histories stay (log entry 3). -/
def Obligations.ResetRestoresEveryRegister : Prop :=
  ∀ (s : State) (turns : List Turn), s.sched = .reset :: turns →
    ∃ t, step s = .next t ∧
      sameReceiver (State.resetWith s.cfg) t ∧ sameTransmitter (State.resetWith s.cfg) t ∧ sameFatal (State.resetWith s.cfg) t ∧
      t.stopReq = false ∧ (∀ a, Memory.read t.txbuf a = none ∧ t.txbWritten a = false ∧ Memory.read t.rxbuf a = none) ∧
      t.rxEv = none ∧ t.txEv = none ∧ t.ctlEv = none ∧ t.rxEvents = s.rxEvents ∧ t.txEvents = s.txEvents ∧
      t.ctlEvents = s.ctlEvents ∧ t.linkq = s.linkq ∧ t.cfg = s.cfg ∧ t.seqNext = s.cfg.seqInit

/-- R44: the state after reset, register by register, and the outputs the rule derives from it. -/
def Obligations.ResetStateValues : Prop :=
  State.reset.rxState = .stopped ∧ State.reset.rxEsc = false ∧ State.reset.rxSum = 0 ∧ State.reset.rxVer = 0 ∧
  State.reset.rxMod = 0 ∧ State.reset.rxSeq = 0 ∧ State.reset.rxType = 0 ∧ State.reset.rxLen = 0 ∧ State.reset.rxIdx = 0 ∧
  State.reset.stopReq = false ∧ State.reset.ackReq = false ∧ State.reset.seqNext = 0 ∧ State.reset.msgPending = false ∧
  State.reset.msgOpcode = 0 ∧ State.reset.msgLen = 0 ∧ State.reset.msgSeq = 0 ∧ State.reset.txKind = .none ∧
  State.reset.txSeq = 0 ∧ State.reset.txRem = [] ∧ State.reset.fatal = false ∧ State.reset.fatalCause = 0 ∧
  (∀ i, State.reset.txbWritten i = false) ∧ State.reset.rxReady = false ∧ State.reset.txValid = false ∧
  State.reset.stTxBusy = false ∧ State.reset.stFatal = false ∧ State.reset.stRxState = 0 ∧ State.reset.rxFrameValid = false ∧
  State.reset.rxEv = none ∧ State.reset.txEv = none ∧ State.reset.ctlEv = none

/-- R41, R163: in a delivery the outputs show the frame and the host's read answers `RXBUF[rxb_addr]` below `rx_len`. At all other
times `rx_frame_valid` is 0 and the other outputs are unspecified, which are free values by the model's choice (log entry 4), as
is a read outside the delivered body. A read changes no register, it is only recorded. -/
def Obligations.DeliveryShowsTheFrame : Prop :=
  ∀ (s : State) (addr : Byte) (acts : List HostAction) (turns : List Turn),
    s.Inv → s.sched = .host :: turns → s.hostq = .rxbRead addr :: acts →
    ∃ v, step s = .next { beginStep s with sched := turns, hostq := acts, hostReads := s.hostReads ++ [(addr, v)] } ∧
      (s.fatal = false → s.rxState = .deliver →
        s.rxFrameValid = true ∧
        some s.rxOpcode = (do let h ← Memory.read s.rxbuf 0; let l ← Memory.read s.rxbuf 1; return h ++ l) ∧
        s.rxPlen = s.rxLen - 2 ∧ s.rxHdrSeq = s.rxSeq ∧ s.rxHdrVer = s.rxVer ∧ s.rxHdrMod = s.rxMod ∧
        (addr.toNat < s.rxLen.toNat → Memory.read s.rxbuf addr.toNat = some v) ∧
        (s.rxLen.toNat ≤ addr.toNat → v = Config.freeRxbRdata (s.ticks + 1) addr)) ∧
      (s.fatal = true ∨ s.rxState ≠ .deliver →
        s.rxFrameValid = false ∧ s.rxOpcode = Config.freeRxOpcode s.ticks ∧ s.rxPlen = Config.freeRxPlen s.ticks ∧
        s.rxHdrSeq = Config.freeRxHdrSeq s.ticks ∧ s.rxHdrVer = Config.freeRxHdrVer s.ticks ∧
        s.rxHdrMod = Config.freeRxHdrMod s.ticks ∧ v = Config.freeRxbRdata (s.ticks + 1) addr)

/-- R185, R155: inputs of one clock: `rst` overrides everything; a clock with `link_err` performs no other step; otherwise a TXBUF
write is performed before a host command. -/
def Obligations.ClockInputsAreOrdered : Prop :=
  ∀ (s : State) (linkErr : Bool) (write : Option TxbWord) (command : Option CommandWord),
    step (s.placeClock true linkErr write command) = .next (applyReset (beginStep s)) ∧
    step (s.placeClock false true write command) = .next (linkError (beginStep s)) ∧
    (∀ w cw, write = some w → command = some cw →
      step (s.placeClock false false write command) =
        exec (decodeTxbWrite w) { beginStep s with sched := .host :: s.sched, hostq := .command cw :: s.hostq })

/-! ## Codec -/

/-- R102: every frame the framer builds sums to 0 over its logical bytes, so it verifies; its wire bytes need not. (Of payloads longer
than 253 bytes, which no frame carries, it speaks by log entry 23, the model's choice.) -/
def Obligations.BuiltFramesSumToZero : Prop :=
  (∀ (c : Config) (seq : Byte) (opcode : Opcode) (payload : List Byte),
    checksum (frameMsg c seq opcode payload) = 0 ∧ checksum (frameAck c seq) = 0 ∧
    verify (frameMsg c seq opcode payload) = true ∧ verify (frameAck c seq) = true) ∧
  checksum (wire Config.default (frameAck Config.default 0xA4)) = 0xCA

/-- R92: a frame verifies exactly if its bytes sum to 0 modulo 256, and the checksum detects every single-byte error; a change that
keeps the sum passes. -/
def Obligations.SingleByteErrorIsDetected : Prop :=
  (∀ f : List Byte, verify f = true ↔ (f.map BitVec.toNat).sum % 256 = 0) ∧
  (∀ (before after : List Byte) (b b' : Byte), b ≠ b' → verify (before ++ b :: after) = true →
    verify (before ++ b' :: after) = false) ∧
  (∀ (before between after : List Byte) (b b' d : Byte), verify (before ++ b :: between ++ b' :: after) = true →
    verify (before ++ (b + d) :: between ++ (b' - d) :: after) = true)

/-- R95: a byte is stuffed into two bytes exactly if it is `SYNC` or `ESC`, and the second then stands for it. So (R103) stuffing adds
one byte for each `SYNC` or `ESC` after position 0, and a stuffed frame is shorter than twice the frame. -/
def Obligations.StuffedLengthIsExact : Prop :=
  ∀ (c : Config) (b : Byte) (bs : List Byte),
    (stuff c b).length = (if b = c.sync ∨ b = c.esc then 2 else 1) ∧
    (c.wf = true → ∀ x, (stuff c b)[1]? = some x → unstuff c x = some b) ∧
    (wire c (b :: bs)).length = (b :: bs).length + bs.countP (fun x => x = c.sync ∨ x = c.esc) ∧
    (wire c (b :: bs)).length ≤ 2 * (b :: bs).length - 1

/-- R85, R103: with the document's constants a Message frame takes at most 519 wire bytes, 519 is reached, and an Ack frame takes 7
or 8. -/
def Obligations.WireFrameIsAtMost519Bytes : Prop :=
  (∀ (seq : Byte) (opcode : Opcode) (payload : List Byte), payload.length ≤ 253 →
    (wire Config.default (frameMsg Config.default seq opcode payload)).length ≤ 519) ∧
  (∃ (seq : Byte) (opcode : Opcode) (payload : List Byte), payload.length = 253 ∧
    (wire Config.default (frameMsg Config.default seq opcode payload)).length = 519) ∧
  (∀ seq : Byte, (wire Config.default (frameAck Config.default seq)).length = 7 ∨
    (wire Config.default (frameAck Config.default seq)).length = 8)

/-- R101: after position 0 a wire frame holds no unescaped `SYNC`, and every `ESC` that starts a pair is followed at once by a valid
substitute; with the document's constants no 0xA4 appears after position 0 at all. -/
def Obligations.WireStreamIsEscaped : Prop :=
  (∀ (c : Config) (b : Byte) (bs : List Byte), escapedStream c (wire c (b :: bs)).tail) ∧
  (∀ (b : Byte) (bs : List Byte), (0xA4 : Byte) ∉ (wire Config.default (b :: bs)).tail)

/-- R76, R77: un-stuffing a wire frame after its first byte gives back the logical bytes. -/
def Obligations.UnstuffingInvertsStuffing : Prop :=
  ∀ (c : Config) (b : Byte) (bs : List Byte), c.wf = true → unstuffAll c (wire c (b :: bs)).tail = some bs

/-! ## Encodings -/

/-- Decoding the encoding of a well-formed instruction gives it back, for all rows and every operand the encoding admits. -/
def Obligations.DecodeInvertsEncode : Prop :=
  ∀ (c : Config) (i : Instr), c.wf = true → c.typeMsg ≠ c.typeAck → i.wellFormed c = true → decode c (encode c i) = .instr i

/-- Every word decodes to a well-formed instruction, except a command word with CW[31:27] ≠ 0, which is rejected by name (R81);
and where no bit of the word is ignored, encoding the instruction gives the word back. -/
def Obligations.DecodedInstructionsAreWellFormed : Prop :=
  ∀ (c : Config) (w : InstrWord),
    (∀ i, decode c w = .instr i → i.wellFormed c = true) ∧
    (∀ e, decode c w = .reject e → ∃ cw, w = .cw cw ∧ e = .notACommand cw ∧ commandReserved cw ≠ 0#5) ∧
    (∀ i, decode c w = .instr i → (∀ cw, w = .cw cw → ∃ opcode len, i = .send opcode len) → encode c i = w)

/-- Words of the spec's own programs and tables decode to what they stand for. -/
def Obligations.SpecWordsDecode : Prop :=
  decode Config.default (.cw 0x00000000) = .instr .nop ∧
  decode Config.default (.cw 0x01000000) = .instr .start ∧
  decode Config.default (.cw 0x0304000A) = .instr (.send 0x000A 4) ∧
  decode Config.default (.cw 0x03FE0001) = .instr (.sendOversize 254) ∧
  decode Config.default (.cw 0x08000000) = .reject (.notACommand 0x08000000) ∧
  decode Config.default (.tw 0xFD11) = .instr (.txbWrite 0xFD 0x11) ∧
  decode Config.default (.rxb .hunt 0xA4) = .instr .rxHuntSync ∧
  decode Config.default (.rxb .plain 0xA4) = .instr (.rxLit 0xA4) ∧
  decode Config.default (.rxb .escaped 0xA4) = .instr (.rxEscBad 0xA4) ∧
  decode Config.default (.ft 0x80) = .instr .ftAck

/-! ## The whole machine -/

/-- Every register keeps its invariant at reset, whatever the configuration. -/
def Obligations.ResetMeetsInvariant : Prop := ∀ c : Config, (State.resetWith c).Inv

/-- Every step keeps the invariant of the registers; and under it no body byte falls outside an RXBUF of at least 255 bytes (R135). -/
def Obligations.EveryStepKeepsInvariant : Prop :=
  ∀ s : State, s.Inv → (∀ t, step s = .next t → t.Inv) ∧ (255 ≤ s.cfg.maxBody → step s ≠ .fault .rxbufIndex)

/-- With the document's wire constants and `MAX_PAYLOAD`, `tx_rem` never holds more than 519 bytes (R30). -/
def Obligations.EveryStepKeepsTxRemBounded : Prop :=
  ∀ s t : State, s.Inv →
    s.cfg = { Config.default with
      maxBody := s.cfg.maxBody, escapeErrorFatal := s.cfg.escapeErrorFatal, seqInit := s.cfg.seqInit } →
    s.txRem.length ≤ 519 → step s = .next t → t.txRem.length ≤ 519

/-- R182, R183: in the fatal state no step but reset changes a register, a buffer byte or an event history, takes a link item or
hands a byte to the link. -/
def Obligations.FatalStateIsFrozenUntilReset : Prop :=
  ∀ s t : State, s.fatal = true → (∀ turns, s.sched ≠ .reset :: turns) → step s = .next t →
    sameReceiver s t ∧ t.stopReq = s.stopReq ∧ sameTransmitter s t ∧ sameFatal s t ∧ sameTxbuf s t ∧ sameRxbuf s t ∧
    t.rxEvents = s.rxEvents ∧ t.txEvents = s.txEvents ∧ t.ctlEvents = s.ctlEvents ∧ t.linkq = s.linkq ∧ t.linkOut = s.linkOut

/-- R181: a step enters the fatal state only by a link error, or, with `ESCAPE_ERROR_FATAL`, by a byte taken after `ESC` that is no
substitute. -/
def Obligations.FatalStateHasTwoCauses : Prop :=
  ∀ s t : State, s.fatal = false → step s = .next t → t.fatal = true →
    ((∃ turns, s.sched = .linkErr :: turns) ∧ t.fatalCause = 0xD) ∨
    ((∃ turns w items, s.sched = .rx true :: turns ∧ s.linkq = .byte w :: items ∧ unstuff s.cfg w = none) ∧
      s.cfg.escapeErrorFatal = true ∧ s.rxEsc = true ∧ s.rxState.isAccum = true ∧ t.fatalCause = 0xE)

/-- R148, its safety part: with `ESCAPE_ERROR_FATAL = false` and no link error on the schedule, no run of any length on any bytes and
timeouts enters the fatal state. -/
def Obligations.FuzzedReceiverIsNeverFatal : Prop :=
  ∀ (n : Nat) (s t : State), s.fatal = false → s.cfg.escapeErrorFatal = false → Turn.linkErr ∉ s.sched →
    core.run n s = .next t → t.fatal = false

/-- R147: from entry into `VER` the deframer leaves the frame within 522 link items, if a bad escape is not fatal and
RXBUF has at least 255 bytes (R8). -/
def Obligations.FrameEndsWithin522Bytes : Prop :=
  ∀ (s : State) (turns : List Turn), s.rxState = .ver → s.rxEsc = false → s.fatal = false → s.stopReq = false →
    s.cfg.escapeErrorFatal = false → 255 ≤ s.cfg.maxBody → s.sched = List.replicate 522 (.rx true) ++ turns →
    522 ≤ s.linkq.length →
    ∃ n t, n ≤ 522 ∧ core.run n s = .next t ∧ t.rxState.isAccum = false

/-- R108: the sequence counter changes only at reset and at an accepted SEND: in the host's turn, a presented command word that decodes
to SEND, with no Message queued or in flight. That SEND takes the counter's value, which advances by 1. -/
def Obligations.CounterAdvancesOnlyOnSend : Prop :=
  ∀ s t : State, step s = .next t →
    t.seqNext = s.seqNext ∨ ((∃ turns, s.sched = .reset :: turns) ∧ t.seqNext = s.cfg.seqInit) ∨
    (∃ turns w acts opcode len,
      s.sched = .host :: turns ∧ s.hostq = .command w :: acts ∧ decode s.cfg (.cw w) = .instr (.send opcode len) ∧
      s.fatal = false ∧ s.txMsgBusy = false ∧ t.msgPending = true ∧ t.msgOpcode = opcode ∧ t.msgLen = len ∧
      t.msgSeq = s.seqNext ∧ t.seqNext = s.seqNext + 1)

/-- R115, R57: a step hands the link nothing or the first of the frame's remaining bytes; and unless reset cuts it short, a frame not
yet handed over stays the frame in flight, in order, with nothing put between its bytes. -/
def Obligations.FramesDoNotInterleave : Prop :=
  ∀ s t : State, s.Inv → step s = .next t →
    ((t.linkOut = s.linkOut ∧ (s.txRem ≠ [] → (∀ turns, s.sched ≠ .reset :: turns) →
        t.txRem = s.txRem ∧ t.txKind = s.txKind ∧ t.txSeq = s.txSeq)) ∨
     (∃ b, s.txRem = b :: t.txRem ∧ t.linkOut = s.linkOut ++ [b] ∧ t.txKind = s.txKind ∧ t.txSeq = s.txSeq))

/-- R59, R199: while a Message is queued or in flight no step but reset changes a byte of TXBUF. -/
def Obligations.TxbufIsFixedWhileMessageBusy : Prop :=
  ∀ s t : State, s.txMsgBusy = true → (∀ turns, s.sched ≠ .reset :: turns) → step s = .next t → sameTxbuf s t

/-- R60: during a delivery no step but reset changes RXBUF or a header register, and the delivery ends only by the host's
RX_RELEASE. -/
def Obligations.DeliveryIsStable : Prop :=
  ∀ s t : State, s.rxState = .deliver → (∀ turns, s.sched ≠ .reset :: turns) → step s = .next t →
    sameRxbuf s t ∧ t.rxVer = s.rxVer ∧ t.rxMod = s.rxMod ∧ t.rxSeq = s.rxSeq ∧ t.rxType = s.rxType ∧ t.rxLen = s.rxLen ∧
    (t.rxState ≠ .deliver → ∃ w acts, s.hostq = .command w :: acts ∧ decode s.cfg (.cw w) = .instr .rxRelease)

/-- R61: a frame is offered to the host only by a step that finds the Ack request fallen, and the request falls, but for reset, only
in the step after the Ack's last byte was handed over. -/
def Obligations.AckPrecedesDelivery : Prop :=
  ∀ s t : State, step s = .next t →
    (s.rxState ≠ .deliver → t.rxState = .deliver → s.rxState = .ackWait ∧ s.ackReq = false) ∧
    (s.ackReq = true → t.ackReq = false → (∀ turns, s.sched ≠ .reset :: turns) → s.txKind = .ack ∧ s.txRem = [])

/-- R151: an Ack is requested only for a Message whose residual sum is 0, and so is an event that trusts a frame's fields. -/
def Obligations.ChecksumComesFirst : Prop :=
  ∀ s t : State, s.Inv → step s = .next t →
    (s.ackReq = false → t.ackReq = true → t.rxSum = 0 ∧ t.rxType = s.cfg.typeMsg) ∧
    (∀ e, t.rxEv = some e → e.code ∈ [EventCode.rxAckSeen, .rxDropUnknownType, .rxDropShortMsg, .rxMsgReady] → t.rxSum = 0)

/-- R150: an RX step, a frame error among them, changes nothing of the transmitter: not the counter, the slot, the frame in flight or
TXBUF, and hands the link nothing. -/
def Obligations.ReceiverNeverTouchesTransmitter : Prop :=
  ∀ (s t : State) (offered : Bool) (turns : List Turn), s.sched = .rx offered :: turns → step s = .next t →
    sameTransmitter s t ∧ sameTxbuf s t ∧ t.linkOut = s.linkOut ∧ t.txEvents = s.txEvents ∧ t.ctlEvents = s.ctlEvents

/-- R175: each port carries at most one event a step, and what it carries is what the step adds to that port's history. -/
def Obligations.OneEventPerPortPerStep : Prop :=
  ∀ s t : State, step s = .next t →
    t.rxEvents = s.rxEvents ++ t.rxEv.toList ∧ t.txEvents = s.txEvents ++ t.txEv.toList ∧
    t.ctlEvents = s.ctlEvents ++ t.ctlEv.toList

/-- R208: in a quiescent state (as log entry 17 reads the word: nothing left at the link, no STOP in `HUNT`) no RX and no TX step
is enabled, so an engine's turn changes no register. And outside the fatal state, a state that is not quiescent, and not inside a
frame that waits for the link, has an engine step enabled: in the turn of one of the two engines, the link offering what it holds
and accepting, the step is not the one that changes nothing. -/
def Obligations.QuiescentStateHasNoEngineStep : Prop :=
  ∀ s : State,
    (∀ (turns : List Turn) (b : Bool), s.quiescent = true → (s.sched = .rx b :: turns ∨ s.sched = .tx b :: turns) →
      step s = .next { beginStep s with sched := turns }) ∧
    (s.quiescent = false → s.fatal = false → (s.rxState.isAccum = false ∨ s.linkq ≠ [] ∨ s.stopReq = true) →
      (∀ turns, step { s with sched := .rx true :: turns } ≠ .next { beginStep s with sched := turns }) ∨
      (∀ turns, step { s with sched := .tx true :: turns } ≠ .next { beginStep s with sched := turns }))

/-- R100, first half: fed the wire bytes of a Message frame and nothing else, a hunting receiver reaches `ACK_WAIT` with the frame's
fields and body, and raises no event. RXBUF has at least 255 bytes here (R8); where TYPE_MSG =
TYPE_ACK the frame counts as a Message by the model's choice (log entry 21). -/
def Obligations.ReceiverAcceptsWireFrame : Prop :=
  ∀ (s : State) (seq : Byte) (opcode : Opcode) (payload : List Byte),
    s.cfg.wf = true → 255 ≤ s.cfg.maxBody → payload.length ≤ 253 →
    s.fatal = false → s.stopReq = false → s.rxState = .hunt →
    let ws := wire s.cfg (frameMsg s.cfg seq opcode payload)
    ∃ t, core.run ws.length (s.fedWith ws) = .next t ∧
      t.rxState = .ackWait ∧ t.ackReq = true ∧ t.rxSeq = seq ∧ t.rxType = s.cfg.typeMsg ∧ t.rxVer = s.cfg.version ∧
      t.rxMod = s.cfg.moduleId ∧ t.rxLen.toNat = 2 + payload.length ∧
      Memory.read t.rxbuf 0 = some (opcodeHigh opcode) ∧ Memory.read t.rxbuf 1 = some (opcodeLow opcode) ∧
      (∀ i < payload.length, Memory.read t.rxbuf (2 + i) = payload[i]?) ∧
      t.rxEvents = s.rxEvents ∧ t.linkq = s.linkq ∧ t.sched = s.sched

/-- R100, whole: after that, with the TX engine idle before and the link accepting, the Ack of the frame's sequence number goes out
and the frame is delivered: its opcode, its payload length and its payload are what the host reads. RXBUF has at least 255 bytes here
(R8), and log entry 21 as before. -/
def Obligations.SentMessageIsAcknowledgedAndDelivered : Prop :=
  ∀ (s : State) (seq : Byte) (opcode : Opcode) (payload : List Byte) (turns : List Turn),
    s.cfg.wf = true → 255 ≤ s.cfg.maxBody → payload.length ≤ 253 →
    s.fatal = false → s.stopReq = false → s.rxState = .hunt → s.txKind = .none →
    let ws := wire s.cfg (frameMsg s.cfg seq opcode payload)
    let ack := wire s.cfg (frameAck s.cfg seq)
    s.sched = List.replicate (ack.length + 2) (.tx true) ++ .rx false :: turns →
    ∃ t, core.run (ws.length + (ack.length + 3)) (s.fedWith ws) = .next t ∧
      t.rxState = .deliver ∧ t.rxFrameValid = true ∧ t.rxHdrSeq = seq ∧ t.rxOpcode = opcode ∧
      t.rxPlen.toNat = payload.length ∧ (∀ i < payload.length, some (t.rxbRdata (BitVec.ofNat 8 (2 + i))) = payload[i]?) ∧
      t.linkOut = s.linkOut ++ ack ∧ t.txEvents = s.txEvents ++ [⟨.txAckDone, seq⟩] ∧
      t.rxEvents = s.rxEvents ++ [⟨.rxMsgReady, seq⟩] ∧ t.sched = turns
end

