-- ==== Sys2Proof/Laws/Codec.lean ====
section
/-! SUPPORT. The laws of the pure functions: sums over appended lists, and what stuffing does to one byte and to a list. -/

namespace Sys2Proof.Machine

@[simp] theorem checksum_nil : checksum [] = 0 := rfl

@[simp] theorem checksum_cons (b : Byte) (bs : List Byte) : checksum (b :: bs) = b + checksum bs := rfl

theorem checksum_append (xs ys : List Byte) : checksum (xs ++ ys) = checksum xs + checksum ys := by
  induction xs with
  | nil => simp
  | cons x xs ih => simp [ih, BitVec.add_assoc]

@[simp] theorem wire_nil (c : Config) : wire c [] = [] := rfl

@[simp] theorem wire_cons (c : Config) (b : Byte) (bs : List Byte) : wire c (b :: bs) = b :: stuffAll c bs := rfl

@[simp] theorem stuffAll_nil (c : Config) : stuffAll c [] = [] := rfl

@[simp] theorem stuffAll_cons (c : Config) (b : Byte) (bs : List Byte) : stuffAll c (b :: bs) = stuff c b ++ stuffAll c bs := rfl

theorem stuffAll_append (c : Config) (xs ys : List Byte) : stuffAll c (xs ++ ys) = stuffAll c xs ++ stuffAll c ys := by
  induction xs with
  | nil => rfl
  | cons x xs ih => simp [ih]

/-- The three forms of a stuffed byte, each with the substitute's meaning (R93, R94). -/
theorem stuff_cases (c : Config) (b : Byte) :
    (b = c.sync ∧ stuff c b = [c.esc, c.subSync]) ∨ (b ≠ c.sync ∧ b = c.esc ∧ stuff c b = [c.esc, c.subEsc]) ∨
    (b ≠ c.sync ∧ b ≠ c.esc ∧ stuff c b = [b]) := by
  unfold stuff
  by_cases h : b = c.sync
  · exact .inl ⟨h, if_pos h⟩
  · by_cases h' : b = c.esc
    · exact .inr (.inl ⟨h, h', by rw [if_neg h, if_pos h']⟩)
    · exact .inr (.inr ⟨h, h', by rw [if_neg h, if_neg h']⟩)

theorem config_wf_iff {c : Config} : c.wf = true ↔ c.sync ≠ c.esc ∧ c.subSync ≠ c.subEsc := by
  simp [Config.wf]

theorem unstuff_subSync (c : Config) : unstuff c c.subSync = some c.sync := if_pos rfl

theorem unstuff_subEsc {c : Config} (h : c.wf = true) : unstuff c c.subEsc = some c.esc := by
  unfold unstuff
  rw [if_neg (Ne.symm (config_wf_iff.1 h).2), if_pos rfl]

end Sys2Proof.Machine
end

