-- ==== Sys2Proof/Laws/Memory.lean ====
section
/-! SUPPORT. The laws of a buffer: a read after a write, the canonical form kept, and what a capture of consecutive bytes gives. -/

namespace Sys2Proof.Machine

@[simp] theorem Memory.read_nil (a : Nat) : Memory.read [] a = none := rfl

/-- A read after a write, at any address and of any list, canonical or not. -/
theorem Memory.read_write (m : Memory) (a b : Nat) (v : Byte) :
    Memory.read (Memory.write m a v) b = if b = a then some v else Memory.read m b := by
  induction m with
  | nil => simp [Memory.write, Memory.read, eq_comm]
  | cons e rest ih =>
    obtain ⟨c, u⟩ := e
    unfold Memory.write
    split
    · simp only [Memory.read]
    · split
      · subst_vars; simp only [Memory.read]; grind
      · simp only [Memory.read, ih]; grind

@[simp] theorem Memory.read_write_same (m : Memory) (a : Nat) (v : Byte) :
    Memory.read (Memory.write m a v) a = some v := by simp [Memory.read_write]

theorem Memory.read_write_other (m : Memory) {a b : Nat} (v : Byte) (h : b ≠ a) :
    Memory.read (Memory.write m a v) b = Memory.read m b := by simp [Memory.read_write, h]

/-- The canonical form is kept by a write inside the buffer. -/
theorem Memory.write_wfFrom {size lo a : Nat} {m : Memory} (v : Byte) (ha : a < size) (hlo : lo ≤ a)
    (hm : Memory.wfFrom size lo m = true) : Memory.wfFrom size lo (Memory.write m a v) = true := by
  induction m generalizing lo with
  | nil => simp [Memory.write, Memory.wfFrom, ha, hlo]
  | cons e rest ih =>
    obtain ⟨c, u⟩ := e
    simp only [Memory.wfFrom, Bool.and_eq_true, decide_eq_true_eq] at hm
    obtain ⟨⟨h1, h2⟩, h3⟩ := hm
    unfold Memory.write
    split
    · simp [Memory.wfFrom, *]
    · split
      · subst_vars; simp [Memory.wfFrom, *]
      · simp only [Memory.wfFrom, Bool.and_eq_true, decide_eq_true_eq]
        exact ⟨⟨h1, h2⟩, ih (by omega) h3⟩

theorem Memory.write_wf {size a : Nat} {m : Memory} (v : Byte) (ha : a < size) (hm : Memory.wf size m = true) :
    Memory.wf size (Memory.write m a v) = true := Memory.write_wfFrom v ha (Nat.zero_le a) hm

/-- What a canonical buffer lists lies inside it. -/
theorem Memory.read_lt_of_wfFrom {size lo a : Nat} {m : Memory} (hm : Memory.wfFrom size lo m = true)
    (h : (Memory.read m a).isSome = true) : lo ≤ a ∧ a < size := by
  induction m generalizing lo with
  | nil => simp at h
  | cons e rest ih =>
    obtain ⟨c, u⟩ := e
    simp only [Memory.wfFrom, Bool.and_eq_true, decide_eq_true_eq] at hm
    obtain ⟨⟨h1, h2⟩, h3⟩ := hm
    simp only [Memory.read] at h
    split at h
    · subst_vars; exact ⟨h1, h2⟩
    · have := ih h3 h; omega

/-- A capture gives a byte for each index, the byte the buffer holds. -/
theorem payloadFrom_spec {m : Memory} {start n : Nat} {bs : List Byte} (h : payloadFrom m start n = some bs) :
    bs.length = n ∧ ∀ i < n, Memory.read m (start + i) = bs[i]? := by
  induction n generalizing start bs with
  | zero => simp only [payloadFrom, Option.some.injEq] at h; subst h; simp
  | succ n ih =>
    simp only [payloadFrom] at h
    split at h
    · rename_i b cs hb hc
      obtain rfl : b :: cs = bs := by simpa using h
      obtain ⟨hl, hr⟩ := ih hc
      refine ⟨by simp [hl], ?_⟩
      rintro (_ | i) hi
      · simpa using hb
      · have := hr i (by omega)
        rw [show start + (i + 1) = start + 1 + i by omega, this]; simp
    · simp at h

/-- A capture fails exactly when some byte of it has not been written. -/
theorem payloadFrom_eq_none {m : Memory} {start n : Nat} :
    payloadFrom m start n = none ↔ ∃ i < n, Memory.read m (start + i) = none := by
  induction n generalizing start with
  | zero => simp [payloadFrom]
  | succ n ih =>
    constructor
    · intro h
      cases hb : Memory.read m start with
      | none => exact ⟨0, by omega, by simpa using hb⟩
      | some b =>
        cases hc : payloadFrom m (start + 1) n with
        | none =>
          obtain ⟨i, hi, hr⟩ := ih.1 hc
          exact ⟨i + 1, by omega, by rw [← hr]; congr 1; omega⟩
        | some cs => simp [payloadFrom, hb, hc] at h
    · rintro ⟨i, hi, hr⟩
      cases i with
      | zero => simp only [payloadFrom]; simp_all
      | succ i =>
        have : payloadFrom m (start + 1) n = none := ih.2 ⟨i, by omega, by rw [← hr]; congr 1; omega⟩
        simp [payloadFrom, this]

end Sys2Proof.Machine
end

