-- ==== Sys2Proof/Laws/State.lean ====
section
/-! SUPPORT. One lemma per field for each update of State that the shared operations make: no later proof unfolds the update. -/

namespace Sys2Proof.Machine

/-! ## raiseRx -/

@[simp] theorem raiseRx_cfg (k : EventCode) (x : Byte) (s : State) : (raiseRx k x s).cfg = s.cfg := rfl
@[simp] theorem raiseRx_rxState (k : EventCode) (x : Byte) (s : State) : (raiseRx k x s).rxState = s.rxState := rfl
@[simp] theorem raiseRx_rxEsc (k : EventCode) (x : Byte) (s : State) : (raiseRx k x s).rxEsc = s.rxEsc := rfl
@[simp] theorem raiseRx_rxSum (k : EventCode) (x : Byte) (s : State) : (raiseRx k x s).rxSum = s.rxSum := rfl
@[simp] theorem raiseRx_rxVer (k : EventCode) (x : Byte) (s : State) : (raiseRx k x s).rxVer = s.rxVer := rfl
@[simp] theorem raiseRx_rxMod (k : EventCode) (x : Byte) (s : State) : (raiseRx k x s).rxMod = s.rxMod := rfl
@[simp] theorem raiseRx_rxSeq (k : EventCode) (x : Byte) (s : State) : (raiseRx k x s).rxSeq = s.rxSeq := rfl
@[simp] theorem raiseRx_rxType (k : EventCode) (x : Byte) (s : State) : (raiseRx k x s).rxType = s.rxType := rfl
@[simp] theorem raiseRx_rxLen (k : EventCode) (x : Byte) (s : State) : (raiseRx k x s).rxLen = s.rxLen := rfl
@[simp] theorem raiseRx_rxIdx (k : EventCode) (x : Byte) (s : State) : (raiseRx k x s).rxIdx = s.rxIdx := rfl
@[simp] theorem raiseRx_stopReq (k : EventCode) (x : Byte) (s : State) : (raiseRx k x s).stopReq = s.stopReq := rfl
@[simp] theorem raiseRx_ackReq (k : EventCode) (x : Byte) (s : State) : (raiseRx k x s).ackReq = s.ackReq := rfl
@[simp] theorem raiseRx_seqNext (k : EventCode) (x : Byte) (s : State) : (raiseRx k x s).seqNext = s.seqNext := rfl
@[simp] theorem raiseRx_msgPending (k : EventCode) (x : Byte) (s : State) : (raiseRx k x s).msgPending = s.msgPending := rfl
@[simp] theorem raiseRx_msgOpcode (k : EventCode) (x : Byte) (s : State) : (raiseRx k x s).msgOpcode = s.msgOpcode := rfl
@[simp] theorem raiseRx_msgLen (k : EventCode) (x : Byte) (s : State) : (raiseRx k x s).msgLen = s.msgLen := rfl
@[simp] theorem raiseRx_msgSeq (k : EventCode) (x : Byte) (s : State) : (raiseRx k x s).msgSeq = s.msgSeq := rfl
@[simp] theorem raiseRx_txKind (k : EventCode) (x : Byte) (s : State) : (raiseRx k x s).txKind = s.txKind := rfl
@[simp] theorem raiseRx_txSeq (k : EventCode) (x : Byte) (s : State) : (raiseRx k x s).txSeq = s.txSeq := rfl
@[simp] theorem raiseRx_txRem (k : EventCode) (x : Byte) (s : State) : (raiseRx k x s).txRem = s.txRem := rfl
@[simp] theorem raiseRx_fatal (k : EventCode) (x : Byte) (s : State) : (raiseRx k x s).fatal = s.fatal := rfl
@[simp] theorem raiseRx_fatalCause (k : EventCode) (x : Byte) (s : State) : (raiseRx k x s).fatalCause = s.fatalCause := rfl
@[simp] theorem raiseRx_txbuf (k : EventCode) (x : Byte) (s : State) : (raiseRx k x s).txbuf = s.txbuf := rfl
@[simp] theorem raiseRx_rxbuf (k : EventCode) (x : Byte) (s : State) : (raiseRx k x s).rxbuf = s.rxbuf := rfl
@[simp] theorem raiseRx_rxEv (k : EventCode) (x : Byte) (s : State) : (raiseRx k x s).rxEv = some ⟨k, x⟩ := rfl
@[simp] theorem raiseRx_txEv (k : EventCode) (x : Byte) (s : State) : (raiseRx k x s).txEv = s.txEv := rfl
@[simp] theorem raiseRx_ctlEv (k : EventCode) (x : Byte) (s : State) : (raiseRx k x s).ctlEv = s.ctlEv := rfl
@[simp] theorem raiseRx_rxEvents (k : EventCode) (x : Byte) (s : State) : (raiseRx k x s).rxEvents = s.rxEvents ++ [⟨k, x⟩] := rfl
@[simp] theorem raiseRx_txEvents (k : EventCode) (x : Byte) (s : State) : (raiseRx k x s).txEvents = s.txEvents := rfl
@[simp] theorem raiseRx_ctlEvents (k : EventCode) (x : Byte) (s : State) : (raiseRx k x s).ctlEvents = s.ctlEvents := rfl
@[simp] theorem raiseRx_linkOut (k : EventCode) (x : Byte) (s : State) : (raiseRx k x s).linkOut = s.linkOut := rfl
@[simp] theorem raiseRx_hostReads (k : EventCode) (x : Byte) (s : State) : (raiseRx k x s).hostReads = s.hostReads := rfl
@[simp] theorem raiseRx_linkq (k : EventCode) (x : Byte) (s : State) : (raiseRx k x s).linkq = s.linkq := rfl
@[simp] theorem raiseRx_hostq (k : EventCode) (x : Byte) (s : State) : (raiseRx k x s).hostq = s.hostq := rfl
@[simp] theorem raiseRx_sched (k : EventCode) (x : Byte) (s : State) : (raiseRx k x s).sched = s.sched := rfl
@[simp] theorem raiseRx_ticks (k : EventCode) (x : Byte) (s : State) : (raiseRx k x s).ticks = s.ticks := rfl

/-! ## raiseTx -/

@[simp] theorem raiseTx_cfg (k : EventCode) (x : Byte) (s : State) : (raiseTx k x s).cfg = s.cfg := rfl
@[simp] theorem raiseTx_rxState (k : EventCode) (x : Byte) (s : State) : (raiseTx k x s).rxState = s.rxState := rfl
@[simp] theorem raiseTx_rxEsc (k : EventCode) (x : Byte) (s : State) : (raiseTx k x s).rxEsc = s.rxEsc := rfl
@[simp] theorem raiseTx_rxSum (k : EventCode) (x : Byte) (s : State) : (raiseTx k x s).rxSum = s.rxSum := rfl
@[simp] theorem raiseTx_rxVer (k : EventCode) (x : Byte) (s : State) : (raiseTx k x s).rxVer = s.rxVer := rfl
@[simp] theorem raiseTx_rxMod (k : EventCode) (x : Byte) (s : State) : (raiseTx k x s).rxMod = s.rxMod := rfl
@[simp] theorem raiseTx_rxSeq (k : EventCode) (x : Byte) (s : State) : (raiseTx k x s).rxSeq = s.rxSeq := rfl
@[simp] theorem raiseTx_rxType (k : EventCode) (x : Byte) (s : State) : (raiseTx k x s).rxType = s.rxType := rfl
@[simp] theorem raiseTx_rxLen (k : EventCode) (x : Byte) (s : State) : (raiseTx k x s).rxLen = s.rxLen := rfl
@[simp] theorem raiseTx_rxIdx (k : EventCode) (x : Byte) (s : State) : (raiseTx k x s).rxIdx = s.rxIdx := rfl
@[simp] theorem raiseTx_stopReq (k : EventCode) (x : Byte) (s : State) : (raiseTx k x s).stopReq = s.stopReq := rfl
@[simp] theorem raiseTx_ackReq (k : EventCode) (x : Byte) (s : State) : (raiseTx k x s).ackReq = s.ackReq := rfl
@[simp] theorem raiseTx_seqNext (k : EventCode) (x : Byte) (s : State) : (raiseTx k x s).seqNext = s.seqNext := rfl
@[simp] theorem raiseTx_msgPending (k : EventCode) (x : Byte) (s : State) : (raiseTx k x s).msgPending = s.msgPending := rfl
@[simp] theorem raiseTx_msgOpcode (k : EventCode) (x : Byte) (s : State) : (raiseTx k x s).msgOpcode = s.msgOpcode := rfl
@[simp] theorem raiseTx_msgLen (k : EventCode) (x : Byte) (s : State) : (raiseTx k x s).msgLen = s.msgLen := rfl
@[simp] theorem raiseTx_msgSeq (k : EventCode) (x : Byte) (s : State) : (raiseTx k x s).msgSeq = s.msgSeq := rfl
@[simp] theorem raiseTx_txKind (k : EventCode) (x : Byte) (s : State) : (raiseTx k x s).txKind = s.txKind := rfl
@[simp] theorem raiseTx_txSeq (k : EventCode) (x : Byte) (s : State) : (raiseTx k x s).txSeq = s.txSeq := rfl
@[simp] theorem raiseTx_txRem (k : EventCode) (x : Byte) (s : State) : (raiseTx k x s).txRem = s.txRem := rfl
@[simp] theorem raiseTx_fatal (k : EventCode) (x : Byte) (s : State) : (raiseTx k x s).fatal = s.fatal := rfl
@[simp] theorem raiseTx_fatalCause (k : EventCode) (x : Byte) (s : State) : (raiseTx k x s).fatalCause = s.fatalCause := rfl
@[simp] theorem raiseTx_txbuf (k : EventCode) (x : Byte) (s : State) : (raiseTx k x s).txbuf = s.txbuf := rfl
@[simp] theorem raiseTx_rxbuf (k : EventCode) (x : Byte) (s : State) : (raiseTx k x s).rxbuf = s.rxbuf := rfl
@[simp] theorem raiseTx_rxEv (k : EventCode) (x : Byte) (s : State) : (raiseTx k x s).rxEv = s.rxEv := rfl
@[simp] theorem raiseTx_txEv (k : EventCode) (x : Byte) (s : State) : (raiseTx k x s).txEv = some ⟨k, x⟩ := rfl
@[simp] theorem raiseTx_ctlEv (k : EventCode) (x : Byte) (s : State) : (raiseTx k x s).ctlEv = s.ctlEv := rfl
@[simp] theorem raiseTx_rxEvents (k : EventCode) (x : Byte) (s : State) : (raiseTx k x s).rxEvents = s.rxEvents := rfl
@[simp] theorem raiseTx_txEvents (k : EventCode) (x : Byte) (s : State) : (raiseTx k x s).txEvents = s.txEvents ++ [⟨k, x⟩] := rfl
@[simp] theorem raiseTx_ctlEvents (k : EventCode) (x : Byte) (s : State) : (raiseTx k x s).ctlEvents = s.ctlEvents := rfl
@[simp] theorem raiseTx_linkOut (k : EventCode) (x : Byte) (s : State) : (raiseTx k x s).linkOut = s.linkOut := rfl
@[simp] theorem raiseTx_hostReads (k : EventCode) (x : Byte) (s : State) : (raiseTx k x s).hostReads = s.hostReads := rfl
@[simp] theorem raiseTx_linkq (k : EventCode) (x : Byte) (s : State) : (raiseTx k x s).linkq = s.linkq := rfl
@[simp] theorem raiseTx_hostq (k : EventCode) (x : Byte) (s : State) : (raiseTx k x s).hostq = s.hostq := rfl
@[simp] theorem raiseTx_sched (k : EventCode) (x : Byte) (s : State) : (raiseTx k x s).sched = s.sched := rfl
@[simp] theorem raiseTx_ticks (k : EventCode) (x : Byte) (s : State) : (raiseTx k x s).ticks = s.ticks := rfl

/-! ## raiseCtl -/

@[simp] theorem raiseCtl_cfg (k : EventCode) (x : Byte) (s : State) : (raiseCtl k x s).cfg = s.cfg := rfl
@[simp] theorem raiseCtl_rxState (k : EventCode) (x : Byte) (s : State) : (raiseCtl k x s).rxState = s.rxState := rfl
@[simp] theorem raiseCtl_rxEsc (k : EventCode) (x : Byte) (s : State) : (raiseCtl k x s).rxEsc = s.rxEsc := rfl
@[simp] theorem raiseCtl_rxSum (k : EventCode) (x : Byte) (s : State) : (raiseCtl k x s).rxSum = s.rxSum := rfl
@[simp] theorem raiseCtl_rxVer (k : EventCode) (x : Byte) (s : State) : (raiseCtl k x s).rxVer = s.rxVer := rfl
@[simp] theorem raiseCtl_rxMod (k : EventCode) (x : Byte) (s : State) : (raiseCtl k x s).rxMod = s.rxMod := rfl
@[simp] theorem raiseCtl_rxSeq (k : EventCode) (x : Byte) (s : State) : (raiseCtl k x s).rxSeq = s.rxSeq := rfl
@[simp] theorem raiseCtl_rxType (k : EventCode) (x : Byte) (s : State) : (raiseCtl k x s).rxType = s.rxType := rfl
@[simp] theorem raiseCtl_rxLen (k : EventCode) (x : Byte) (s : State) : (raiseCtl k x s).rxLen = s.rxLen := rfl
@[simp] theorem raiseCtl_rxIdx (k : EventCode) (x : Byte) (s : State) : (raiseCtl k x s).rxIdx = s.rxIdx := rfl
@[simp] theorem raiseCtl_stopReq (k : EventCode) (x : Byte) (s : State) : (raiseCtl k x s).stopReq = s.stopReq := rfl
@[simp] theorem raiseCtl_ackReq (k : EventCode) (x : Byte) (s : State) : (raiseCtl k x s).ackReq = s.ackReq := rfl
@[simp] theorem raiseCtl_seqNext (k : EventCode) (x : Byte) (s : State) : (raiseCtl k x s).seqNext = s.seqNext := rfl
@[simp] theorem raiseCtl_msgPending (k : EventCode) (x : Byte) (s : State) : (raiseCtl k x s).msgPending = s.msgPending := rfl
@[simp] theorem raiseCtl_msgOpcode (k : EventCode) (x : Byte) (s : State) : (raiseCtl k x s).msgOpcode = s.msgOpcode := rfl
@[simp] theorem raiseCtl_msgLen (k : EventCode) (x : Byte) (s : State) : (raiseCtl k x s).msgLen = s.msgLen := rfl
@[simp] theorem raiseCtl_msgSeq (k : EventCode) (x : Byte) (s : State) : (raiseCtl k x s).msgSeq = s.msgSeq := rfl
@[simp] theorem raiseCtl_txKind (k : EventCode) (x : Byte) (s : State) : (raiseCtl k x s).txKind = s.txKind := rfl
@[simp] theorem raiseCtl_txSeq (k : EventCode) (x : Byte) (s : State) : (raiseCtl k x s).txSeq = s.txSeq := rfl
@[simp] theorem raiseCtl_txRem (k : EventCode) (x : Byte) (s : State) : (raiseCtl k x s).txRem = s.txRem := rfl
@[simp] theorem raiseCtl_fatal (k : EventCode) (x : Byte) (s : State) : (raiseCtl k x s).fatal = s.fatal := rfl
@[simp] theorem raiseCtl_fatalCause (k : EventCode) (x : Byte) (s : State) : (raiseCtl k x s).fatalCause = s.fatalCause := rfl
@[simp] theorem raiseCtl_txbuf (k : EventCode) (x : Byte) (s : State) : (raiseCtl k x s).txbuf = s.txbuf := rfl
@[simp] theorem raiseCtl_rxbuf (k : EventCode) (x : Byte) (s : State) : (raiseCtl k x s).rxbuf = s.rxbuf := rfl
@[simp] theorem raiseCtl_rxEv (k : EventCode) (x : Byte) (s : State) : (raiseCtl k x s).rxEv = s.rxEv := rfl
@[simp] theorem raiseCtl_txEv (k : EventCode) (x : Byte) (s : State) : (raiseCtl k x s).txEv = s.txEv := rfl
@[simp] theorem raiseCtl_ctlEv (k : EventCode) (x : Byte) (s : State) : (raiseCtl k x s).ctlEv = some ⟨k, x⟩ := rfl
@[simp] theorem raiseCtl_rxEvents (k : EventCode) (x : Byte) (s : State) : (raiseCtl k x s).rxEvents = s.rxEvents := rfl
@[simp] theorem raiseCtl_txEvents (k : EventCode) (x : Byte) (s : State) : (raiseCtl k x s).txEvents = s.txEvents := rfl
@[simp] theorem raiseCtl_ctlEvents (k : EventCode) (x : Byte) (s : State) : (raiseCtl k x s).ctlEvents = s.ctlEvents ++ [⟨k, x⟩] := rfl
@[simp] theorem raiseCtl_linkOut (k : EventCode) (x : Byte) (s : State) : (raiseCtl k x s).linkOut = s.linkOut := rfl
@[simp] theorem raiseCtl_hostReads (k : EventCode) (x : Byte) (s : State) : (raiseCtl k x s).hostReads = s.hostReads := rfl
@[simp] theorem raiseCtl_linkq (k : EventCode) (x : Byte) (s : State) : (raiseCtl k x s).linkq = s.linkq := rfl
@[simp] theorem raiseCtl_hostq (k : EventCode) (x : Byte) (s : State) : (raiseCtl k x s).hostq = s.hostq := rfl
@[simp] theorem raiseCtl_sched (k : EventCode) (x : Byte) (s : State) : (raiseCtl k x s).sched = s.sched := rfl
@[simp] theorem raiseCtl_ticks (k : EventCode) (x : Byte) (s : State) : (raiseCtl k x s).ticks = s.ticks := rfl

/-! ## beginStep -/

@[simp] theorem beginStep_cfg (s : State) : (beginStep s).cfg = s.cfg := rfl
@[simp] theorem beginStep_rxState (s : State) : (beginStep s).rxState = s.rxState := rfl
@[simp] theorem beginStep_rxEsc (s : State) : (beginStep s).rxEsc = s.rxEsc := rfl
@[simp] theorem beginStep_rxSum (s : State) : (beginStep s).rxSum = s.rxSum := rfl
@[simp] theorem beginStep_rxVer (s : State) : (beginStep s).rxVer = s.rxVer := rfl
@[simp] theorem beginStep_rxMod (s : State) : (beginStep s).rxMod = s.rxMod := rfl
@[simp] theorem beginStep_rxSeq (s : State) : (beginStep s).rxSeq = s.rxSeq := rfl
@[simp] theorem beginStep_rxType (s : State) : (beginStep s).rxType = s.rxType := rfl
@[simp] theorem beginStep_rxLen (s : State) : (beginStep s).rxLen = s.rxLen := rfl
@[simp] theorem beginStep_rxIdx (s : State) : (beginStep s).rxIdx = s.rxIdx := rfl
@[simp] theorem beginStep_stopReq (s : State) : (beginStep s).stopReq = s.stopReq := rfl
@[simp] theorem beginStep_ackReq (s : State) : (beginStep s).ackReq = s.ackReq := rfl
@[simp] theorem beginStep_seqNext (s : State) : (beginStep s).seqNext = s.seqNext := rfl
@[simp] theorem beginStep_msgPending (s : State) : (beginStep s).msgPending = s.msgPending := rfl
@[simp] theorem beginStep_msgOpcode (s : State) : (beginStep s).msgOpcode = s.msgOpcode := rfl
@[simp] theorem beginStep_msgLen (s : State) : (beginStep s).msgLen = s.msgLen := rfl
@[simp] theorem beginStep_msgSeq (s : State) : (beginStep s).msgSeq = s.msgSeq := rfl
@[simp] theorem beginStep_txKind (s : State) : (beginStep s).txKind = s.txKind := rfl
@[simp] theorem beginStep_txSeq (s : State) : (beginStep s).txSeq = s.txSeq := rfl
@[simp] theorem beginStep_txRem (s : State) : (beginStep s).txRem = s.txRem := rfl
@[simp] theorem beginStep_fatal (s : State) : (beginStep s).fatal = s.fatal := rfl
@[simp] theorem beginStep_fatalCause (s : State) : (beginStep s).fatalCause = s.fatalCause := rfl
@[simp] theorem beginStep_txbuf (s : State) : (beginStep s).txbuf = s.txbuf := rfl
@[simp] theorem beginStep_rxbuf (s : State) : (beginStep s).rxbuf = s.rxbuf := rfl
@[simp] theorem beginStep_rxEv (s : State) : (beginStep s).rxEv = none := rfl
@[simp] theorem beginStep_txEv (s : State) : (beginStep s).txEv = none := rfl
@[simp] theorem beginStep_ctlEv (s : State) : (beginStep s).ctlEv = none := rfl
@[simp] theorem beginStep_rxEvents (s : State) : (beginStep s).rxEvents = s.rxEvents := rfl
@[simp] theorem beginStep_txEvents (s : State) : (beginStep s).txEvents = s.txEvents := rfl
@[simp] theorem beginStep_ctlEvents (s : State) : (beginStep s).ctlEvents = s.ctlEvents := rfl
@[simp] theorem beginStep_linkOut (s : State) : (beginStep s).linkOut = s.linkOut := rfl
@[simp] theorem beginStep_hostReads (s : State) : (beginStep s).hostReads = s.hostReads := rfl
@[simp] theorem beginStep_linkq (s : State) : (beginStep s).linkq = s.linkq := rfl
@[simp] theorem beginStep_hostq (s : State) : (beginStep s).hostq = s.hostq := rfl
@[simp] theorem beginStep_sched (s : State) : (beginStep s).sched = s.sched := rfl
@[simp] theorem beginStep_ticks (s : State) : (beginStep s).ticks = s.ticks + 1 := rfl

/-! ## frameAbort -/

@[simp] theorem frameAbort_cfg (k : EventCode) (x : Byte) (s : State) : (frameAbort k x s).cfg = s.cfg := rfl
@[simp] theorem frameAbort_rxState (k : EventCode) (x : Byte) (s : State) : (frameAbort k x s).rxState = .hunt := rfl
@[simp] theorem frameAbort_rxEsc (k : EventCode) (x : Byte) (s : State) : (frameAbort k x s).rxEsc = false := rfl
@[simp] theorem frameAbort_rxSum (k : EventCode) (x : Byte) (s : State) : (frameAbort k x s).rxSum = s.rxSum := rfl
@[simp] theorem frameAbort_rxVer (k : EventCode) (x : Byte) (s : State) : (frameAbort k x s).rxVer = s.rxVer := rfl
@[simp] theorem frameAbort_rxMod (k : EventCode) (x : Byte) (s : State) : (frameAbort k x s).rxMod = s.rxMod := rfl
@[simp] theorem frameAbort_rxSeq (k : EventCode) (x : Byte) (s : State) : (frameAbort k x s).rxSeq = s.rxSeq := rfl
@[simp] theorem frameAbort_rxType (k : EventCode) (x : Byte) (s : State) : (frameAbort k x s).rxType = s.rxType := rfl
@[simp] theorem frameAbort_rxLen (k : EventCode) (x : Byte) (s : State) : (frameAbort k x s).rxLen = s.rxLen := rfl
@[simp] theorem frameAbort_rxIdx (k : EventCode) (x : Byte) (s : State) : (frameAbort k x s).rxIdx = s.rxIdx := rfl
@[simp] theorem frameAbort_stopReq (k : EventCode) (x : Byte) (s : State) : (frameAbort k x s).stopReq = s.stopReq := rfl
@[simp] theorem frameAbort_ackReq (k : EventCode) (x : Byte) (s : State) : (frameAbort k x s).ackReq = s.ackReq := rfl
@[simp] theorem frameAbort_seqNext (k : EventCode) (x : Byte) (s : State) : (frameAbort k x s).seqNext = s.seqNext := rfl
@[simp] theorem frameAbort_msgPending (k : EventCode) (x : Byte) (s : State) : (frameAbort k x s).msgPending = s.msgPending := rfl
@[simp] theorem frameAbort_msgOpcode (k : EventCode) (x : Byte) (s : State) : (frameAbort k x s).msgOpcode = s.msgOpcode := rfl
@[simp] theorem frameAbort_msgLen (k : EventCode) (x : Byte) (s : State) : (frameAbort k x s).msgLen = s.msgLen := rfl
@[simp] theorem frameAbort_msgSeq (k : EventCode) (x : Byte) (s : State) : (frameAbort k x s).msgSeq = s.msgSeq := rfl
@[simp] theorem frameAbort_txKind (k : EventCode) (x : Byte) (s : State) : (frameAbort k x s).txKind = s.txKind := rfl
@[simp] theorem frameAbort_txSeq (k : EventCode) (x : Byte) (s : State) : (frameAbort k x s).txSeq = s.txSeq := rfl
@[simp] theorem frameAbort_txRem (k : EventCode) (x : Byte) (s : State) : (frameAbort k x s).txRem = s.txRem := rfl
@[simp] theorem frameAbort_fatal (k : EventCode) (x : Byte) (s : State) : (frameAbort k x s).fatal = s.fatal := rfl
@[simp] theorem frameAbort_fatalCause (k : EventCode) (x : Byte) (s : State) : (frameAbort k x s).fatalCause = s.fatalCause := rfl
@[simp] theorem frameAbort_txbuf (k : EventCode) (x : Byte) (s : State) : (frameAbort k x s).txbuf = s.txbuf := rfl
@[simp] theorem frameAbort_rxbuf (k : EventCode) (x : Byte) (s : State) : (frameAbort k x s).rxbuf = s.rxbuf := rfl
@[simp] theorem frameAbort_rxEv (k : EventCode) (x : Byte) (s : State) : (frameAbort k x s).rxEv = some ⟨k, x⟩ := rfl
@[simp] theorem frameAbort_txEv (k : EventCode) (x : Byte) (s : State) : (frameAbort k x s).txEv = s.txEv := rfl
@[simp] theorem frameAbort_ctlEv (k : EventCode) (x : Byte) (s : State) : (frameAbort k x s).ctlEv = s.ctlEv := rfl
@[simp] theorem frameAbort_rxEvents (k : EventCode) (x : Byte) (s : State) : (frameAbort k x s).rxEvents = s.rxEvents ++ [⟨k, x⟩] := rfl
@[simp] theorem frameAbort_txEvents (k : EventCode) (x : Byte) (s : State) : (frameAbort k x s).txEvents = s.txEvents := rfl
@[simp] theorem frameAbort_ctlEvents (k : EventCode) (x : Byte) (s : State) : (frameAbort k x s).ctlEvents = s.ctlEvents := rfl
@[simp] theorem frameAbort_linkOut (k : EventCode) (x : Byte) (s : State) : (frameAbort k x s).linkOut = s.linkOut := rfl
@[simp] theorem frameAbort_hostReads (k : EventCode) (x : Byte) (s : State) : (frameAbort k x s).hostReads = s.hostReads := rfl
@[simp] theorem frameAbort_linkq (k : EventCode) (x : Byte) (s : State) : (frameAbort k x s).linkq = s.linkq := rfl
@[simp] theorem frameAbort_hostq (k : EventCode) (x : Byte) (s : State) : (frameAbort k x s).hostq = s.hostq := rfl
@[simp] theorem frameAbort_sched (k : EventCode) (x : Byte) (s : State) : (frameAbort k x s).sched = s.sched := rfl
@[simp] theorem frameAbort_ticks (k : EventCode) (x : Byte) (s : State) : (frameAbort k x s).ticks = s.ticks := rfl

/-! ## raiseFatal -/

@[simp] theorem raiseFatal_cfg (k : EventCode) (s : State) : (raiseFatal k s).cfg = s.cfg := rfl
@[simp] theorem raiseFatal_rxState (k : EventCode) (s : State) : (raiseFatal k s).rxState = s.rxState := rfl
@[simp] theorem raiseFatal_rxEsc (k : EventCode) (s : State) : (raiseFatal k s).rxEsc = s.rxEsc := rfl
@[simp] theorem raiseFatal_rxSum (k : EventCode) (s : State) : (raiseFatal k s).rxSum = s.rxSum := rfl
@[simp] theorem raiseFatal_rxVer (k : EventCode) (s : State) : (raiseFatal k s).rxVer = s.rxVer := rfl
@[simp] theorem raiseFatal_rxMod (k : EventCode) (s : State) : (raiseFatal k s).rxMod = s.rxMod := rfl
@[simp] theorem raiseFatal_rxSeq (k : EventCode) (s : State) : (raiseFatal k s).rxSeq = s.rxSeq := rfl
@[simp] theorem raiseFatal_rxType (k : EventCode) (s : State) : (raiseFatal k s).rxType = s.rxType := rfl
@[simp] theorem raiseFatal_rxLen (k : EventCode) (s : State) : (raiseFatal k s).rxLen = s.rxLen := rfl
@[simp] theorem raiseFatal_rxIdx (k : EventCode) (s : State) : (raiseFatal k s).rxIdx = s.rxIdx := rfl
@[simp] theorem raiseFatal_stopReq (k : EventCode) (s : State) : (raiseFatal k s).stopReq = s.stopReq := rfl
@[simp] theorem raiseFatal_ackReq (k : EventCode) (s : State) : (raiseFatal k s).ackReq = s.ackReq := rfl
@[simp] theorem raiseFatal_seqNext (k : EventCode) (s : State) : (raiseFatal k s).seqNext = s.seqNext := rfl
@[simp] theorem raiseFatal_msgPending (k : EventCode) (s : State) : (raiseFatal k s).msgPending = s.msgPending := rfl
@[simp] theorem raiseFatal_msgOpcode (k : EventCode) (s : State) : (raiseFatal k s).msgOpcode = s.msgOpcode := rfl
@[simp] theorem raiseFatal_msgLen (k : EventCode) (s : State) : (raiseFatal k s).msgLen = s.msgLen := rfl
@[simp] theorem raiseFatal_msgSeq (k : EventCode) (s : State) : (raiseFatal k s).msgSeq = s.msgSeq := rfl
@[simp] theorem raiseFatal_txKind (k : EventCode) (s : State) : (raiseFatal k s).txKind = s.txKind := rfl
@[simp] theorem raiseFatal_txSeq (k : EventCode) (s : State) : (raiseFatal k s).txSeq = s.txSeq := rfl
@[simp] theorem raiseFatal_txRem (k : EventCode) (s : State) : (raiseFatal k s).txRem = s.txRem := rfl
@[simp] theorem raiseFatal_fatal (k : EventCode) (s : State) : (raiseFatal k s).fatal = true := rfl
@[simp] theorem raiseFatal_fatalCause (k : EventCode) (s : State) : (raiseFatal k s).fatalCause = k.code := rfl
@[simp] theorem raiseFatal_txbuf (k : EventCode) (s : State) : (raiseFatal k s).txbuf = s.txbuf := rfl
@[simp] theorem raiseFatal_rxbuf (k : EventCode) (s : State) : (raiseFatal k s).rxbuf = s.rxbuf := rfl
@[simp] theorem raiseFatal_rxEv (k : EventCode) (s : State) : (raiseFatal k s).rxEv = s.rxEv := rfl
@[simp] theorem raiseFatal_txEv (k : EventCode) (s : State) : (raiseFatal k s).txEv = s.txEv := rfl
@[simp] theorem raiseFatal_ctlEv (k : EventCode) (s : State) : (raiseFatal k s).ctlEv = s.ctlEv := rfl
@[simp] theorem raiseFatal_rxEvents (k : EventCode) (s : State) : (raiseFatal k s).rxEvents = s.rxEvents := rfl
@[simp] theorem raiseFatal_txEvents (k : EventCode) (s : State) : (raiseFatal k s).txEvents = s.txEvents := rfl
@[simp] theorem raiseFatal_ctlEvents (k : EventCode) (s : State) : (raiseFatal k s).ctlEvents = s.ctlEvents := rfl
@[simp] theorem raiseFatal_linkOut (k : EventCode) (s : State) : (raiseFatal k s).linkOut = s.linkOut := rfl
@[simp] theorem raiseFatal_hostReads (k : EventCode) (s : State) : (raiseFatal k s).hostReads = s.hostReads := rfl
@[simp] theorem raiseFatal_linkq (k : EventCode) (s : State) : (raiseFatal k s).linkq = s.linkq := rfl
@[simp] theorem raiseFatal_hostq (k : EventCode) (s : State) : (raiseFatal k s).hostq = s.hostq := rfl
@[simp] theorem raiseFatal_sched (k : EventCode) (s : State) : (raiseFatal k s).sched = s.sched := rfl
@[simp] theorem raiseFatal_ticks (k : EventCode) (s : State) : (raiseFatal k s).ticks = s.ticks := rfl

/-! ## applyReset -/

@[simp] theorem applyReset_cfg (s : State) : (applyReset s).cfg = s.cfg := rfl
@[simp] theorem applyReset_rxState (s : State) : (applyReset s).rxState = (State.resetWith s.cfg).rxState := rfl
@[simp] theorem applyReset_rxEsc (s : State) : (applyReset s).rxEsc = (State.resetWith s.cfg).rxEsc := rfl
@[simp] theorem applyReset_rxSum (s : State) : (applyReset s).rxSum = (State.resetWith s.cfg).rxSum := rfl
@[simp] theorem applyReset_rxVer (s : State) : (applyReset s).rxVer = (State.resetWith s.cfg).rxVer := rfl
@[simp] theorem applyReset_rxMod (s : State) : (applyReset s).rxMod = (State.resetWith s.cfg).rxMod := rfl
@[simp] theorem applyReset_rxSeq (s : State) : (applyReset s).rxSeq = (State.resetWith s.cfg).rxSeq := rfl
@[simp] theorem applyReset_rxType (s : State) : (applyReset s).rxType = (State.resetWith s.cfg).rxType := rfl
@[simp] theorem applyReset_rxLen (s : State) : (applyReset s).rxLen = (State.resetWith s.cfg).rxLen := rfl
@[simp] theorem applyReset_rxIdx (s : State) : (applyReset s).rxIdx = (State.resetWith s.cfg).rxIdx := rfl
@[simp] theorem applyReset_stopReq (s : State) : (applyReset s).stopReq = (State.resetWith s.cfg).stopReq := rfl
@[simp] theorem applyReset_ackReq (s : State) : (applyReset s).ackReq = (State.resetWith s.cfg).ackReq := rfl
@[simp] theorem applyReset_seqNext (s : State) : (applyReset s).seqNext = (State.resetWith s.cfg).seqNext := rfl
@[simp] theorem applyReset_msgPending (s : State) : (applyReset s).msgPending = (State.resetWith s.cfg).msgPending := rfl
@[simp] theorem applyReset_msgOpcode (s : State) : (applyReset s).msgOpcode = (State.resetWith s.cfg).msgOpcode := rfl
@[simp] theorem applyReset_msgLen (s : State) : (applyReset s).msgLen = (State.resetWith s.cfg).msgLen := rfl
@[simp] theorem applyReset_msgSeq (s : State) : (applyReset s).msgSeq = (State.resetWith s.cfg).msgSeq := rfl
@[simp] theorem applyReset_txKind (s : State) : (applyReset s).txKind = (State.resetWith s.cfg).txKind := rfl
@[simp] theorem applyReset_txSeq (s : State) : (applyReset s).txSeq = (State.resetWith s.cfg).txSeq := rfl
@[simp] theorem applyReset_txRem (s : State) : (applyReset s).txRem = (State.resetWith s.cfg).txRem := rfl
@[simp] theorem applyReset_fatal (s : State) : (applyReset s).fatal = (State.resetWith s.cfg).fatal := rfl
@[simp] theorem applyReset_fatalCause (s : State) : (applyReset s).fatalCause = (State.resetWith s.cfg).fatalCause := rfl
@[simp] theorem applyReset_txbuf (s : State) : (applyReset s).txbuf = (State.resetWith s.cfg).txbuf := rfl
@[simp] theorem applyReset_rxbuf (s : State) : (applyReset s).rxbuf = (State.resetWith s.cfg).rxbuf := rfl
@[simp] theorem applyReset_rxEv (s : State) : (applyReset s).rxEv = (State.resetWith s.cfg).rxEv := rfl
@[simp] theorem applyReset_txEv (s : State) : (applyReset s).txEv = (State.resetWith s.cfg).txEv := rfl
@[simp] theorem applyReset_ctlEv (s : State) : (applyReset s).ctlEv = (State.resetWith s.cfg).ctlEv := rfl
@[simp] theorem applyReset_rxEvents (s : State) : (applyReset s).rxEvents = s.rxEvents := rfl
@[simp] theorem applyReset_txEvents (s : State) : (applyReset s).txEvents = s.txEvents := rfl
@[simp] theorem applyReset_ctlEvents (s : State) : (applyReset s).ctlEvents = s.ctlEvents := rfl
@[simp] theorem applyReset_linkOut (s : State) : (applyReset s).linkOut = s.linkOut := rfl
@[simp] theorem applyReset_hostReads (s : State) : (applyReset s).hostReads = s.hostReads := rfl
@[simp] theorem applyReset_linkq (s : State) : (applyReset s).linkq = s.linkq := rfl
@[simp] theorem applyReset_hostq (s : State) : (applyReset s).hostq = s.hostq := rfl
@[simp] theorem applyReset_sched (s : State) : (applyReset s).sched = s.sched := rfl
@[simp] theorem applyReset_ticks (s : State) : (applyReset s).ticks = s.ticks := rfl

end Sys2Proof.Machine
end

