-- ==== Sys2Proof/Laws/Ops.lean ====
section
/-! SUPPORT. What each shared operation can do, said once: its answers as cases, for a proof to cite instead of unfolding it. -/

namespace Sys2Proof.Machine

/-! ## Guards -/

theorem rxContext_eq_some {s : State} {ctx : RxContext} :
    s.rxContext = some ctx ↔
      (ctx = .hunt ∧ s.rxState = .hunt) ∨ (ctx = .plain ∧ s.rxState.isAccum = true ∧ s.rxEsc = false) ∨
      (ctx = .escaped ∧ s.rxState.isAccum = true ∧ s.rxEsc = true) := by
  unfold State.rxContext
  cases s.rxState <;> cases s.rxEsc <;> cases ctx <;> simp [RxState.isAccum]

theorem rxTakes_iff {s : State} {ctx : RxContext} :
    s.rxTakes ctx = true ↔ s.fatal = false ∧ s.stopReq = false ∧ s.rxContext = some ctx := by
  simp [State.rxTakes, and_assoc]

theorem atDispatch_iff {s : State} :
    s.atDispatch = true ↔ s.fatal = false ∧ s.stopReq = false ∧ s.rxState = .cksum ∧ s.rxSum = 0 := by
  simp [State.atDispatch, and_assoc]

theorem txMsgBusy_iff {s : State} : s.txMsgBusy = true ↔ s.msgPending = true ∨ s.txKind = .msg := by
  simp [State.txMsgBusy]

theorem sendAccepted_iff {s : State} : s.sendAccepted = true ↔ s.fatal = false ∧ s.txMsgBusy = false := by
  simp [State.sendAccepted]

/-! ## Decoding -/

/-- A command word with CW[31:27] ≠ 0 is rejected by name (R81). -/
theorem decode_cw_reject (c : Config) {w : CommandWord} (h : commandReserved w ≠ 0#5) :
    decode c (.cw w) = .reject (.notACommand w) := by
  simp only [decode, decodeCommand]
  exact if_neg h

/-- The row of a substitute is the one `unstuff` says (R94, R128). -/
theorem decodeRxByte_escaped (c : Config) (w : Byte) :
    (unstuff c w = none ∧ decodeRxByte c .escaped w = .rxEscBad w) ∨
    (unstuff c w = some c.sync ∧ decodeRxByte c .escaped w = .rxEscSync) ∨
    (unstuff c w = some c.esc ∧ decodeRxByte c .escaped w = .rxEscEsc) := by
  unfold unstuff decodeRxByte
  by_cases h : w = c.subSync
  · simp [h]
  · by_cases h' : w = c.subEsc
    · refine .inr (.inr ?_); rw [if_neg h, if_pos h', if_neg h, if_pos h']; exact ⟨rfl, rfl⟩
    · simp [h, h']

/-! ## The deframer -/

/-- Dispatch in its context is the meaning of one of the three frame-type rows (R136). -/
theorem dispatchFrame_cases {s : State} (h : s.atDispatch = true) :
    (s.rxType = s.cfg.typeMsg ∧ dispatchFrame s = .next { s with rxState := .ackWait, ackReq := true }) ∨
    (s.rxType = s.cfg.typeAck ∧ dispatchFrame s = .next { raiseRx .rxAckSeen s.rxSeq s with rxState := .hunt }) ∨
    (s.rxType ≠ s.cfg.typeMsg ∧ s.rxType ≠ s.cfg.typeAck ∧
      dispatchFrame s = .next (frameAbort .rxDropUnknownType s.rxType s)) := by
  unfold dispatchFrame
  by_cases hm : s.rxType = s.cfg.typeMsg
  · simp [hm, execFtMsg, h]
  · by_cases ha : s.rxType = s.cfg.typeAck
    · refine .inr (.inl ⟨ha, ?_⟩)
      rw [if_neg hm, if_pos ha]
      simp [execFtAck, h, ha]
    · simp [hm, ha, execFtOther, h]

/-- Everything the rule of a field can do with a logical byte, in the states inside a frame. -/
theorem rxField_cases {b : Byte} {s t : State} (hs : s.rxState.isAccum = true) (hf : s.fatal = false) (hq : s.stopReq = false)
    (h : rxField b s = .next t) :
    (s.rxState = .ver ∧ t = { s with rxVer := b, rxState := .mod }) ∨
    (s.rxState = .mod ∧ t = { s with rxMod := b, rxState := .seq }) ∨
    (s.rxState = .seq ∧ t = { s with rxSeq := b, rxState := .type }) ∨
    (s.rxState = .type ∧ t = { s with rxType := b, rxState := .len }) ∨
    (s.rxState = .len ∧ t = { s with rxLen := b, rxIdx := 0, rxState := if b = 0 then .cksum else .body }) ∨
    (s.rxState = .body ∧ s.rxIdx.toNat < s.cfg.rxbufSize ∧ s.rxIdx + 1 = s.rxLen ∧
      t = { s with rxbuf := Memory.write s.rxbuf s.rxIdx.toNat b, rxState := .cksum }) ∨
    (s.rxState = .body ∧ s.rxIdx.toNat < s.cfg.rxbufSize ∧ s.rxIdx + 1 ≠ s.rxLen ∧
      t = { s with rxbuf := Memory.write s.rxbuf s.rxIdx.toNat b, rxIdx := s.rxIdx + 1 }) ∨
    (s.rxState = .cksum ∧ s.rxSum ≠ 0 ∧ t = frameAbort .rxDropChecksum s.rxSum s) ∨
    (s.rxState = .cksum ∧ s.rxSum = 0 ∧ s.rxType = s.cfg.typeMsg ∧ t = { s with rxState := .ackWait, ackReq := true }) ∨
    (s.rxState = .cksum ∧ s.rxSum = 0 ∧ s.rxType = s.cfg.typeAck ∧
      t = { raiseRx .rxAckSeen s.rxSeq s with rxState := .hunt }) ∨
    (s.rxState = .cksum ∧ s.rxSum = 0 ∧ s.rxType ≠ s.cfg.typeMsg ∧ s.rxType ≠ s.cfg.typeAck ∧
      t = frameAbort .rxDropUnknownType s.rxType s) := by
  unfold rxField at h
  cases hr : s.rxState <;> simp only [hr] at h hs
  case ver => simp_all
  case mod => simp_all
  case seq => simp_all
  case type => simp_all
  case len => simp_all
  case body =>
    unfold rxBodyByte at h
    split at h
    · split at h <;> simp_all
    · simp at h
  case cksum =>
    unfold rxChecksumByte at h
    split at h
    · rename_i h0
      have hd : s.atDispatch = true := atDispatch_iff.2 ⟨hf, hq, hr, h0⟩
      rcases dispatchFrame_cases hd with ⟨h1, h2⟩ | ⟨h1, h2⟩ | ⟨h1, h1', h2⟩ <;> rw [h2] at h <;> simp_all
    · simp_all
  all_goals simp [RxState.isAccum] at hs

/-- The rule of a field stops only with the fault of an index outside RXBUF, in `BODY` at an index not below `RXBUF_SIZE`. -/
theorem rxField_stops {b : Byte} {s : State} :
    (∃ t, rxField b s = .next t) ∨
    (s.rxState = .body ∧ ¬ s.rxIdx.toNat < s.cfg.rxbufSize ∧ rxField b s = .fault .rxbufIndex) := by
  unfold rxField
  cases hr : s.rxState
  case body =>
    by_cases hi : s.rxIdx.toNat < s.cfg.rxbufSize
    · exact .inl (by unfold rxBodyByte; dsimp only; rw [if_pos hi]; split <;> exact ⟨_, rfl⟩)
    · exact .inr ⟨rfl, hi, if_neg hi⟩
  case cksum =>
    unfold rxChecksumByte dispatchFrame execFtMsg execFtAck execFtOther
    dsimp only
    repeat' split
    all_goals exact .inl ⟨_, rfl⟩
  all_goals exact .inl ⟨_, rfl⟩

/-! ## The TX engine -/

/-- Everything a TX step can do, not fatal (R105). -/
theorem txStep_cases {ready : Bool} {s t : State} (hf : s.fatal = false) (h : txStep ready s = .next t) :
    (s.txKind = .none ∧ s.ackReq = true ∧ t = loadAck s) ∨
    (s.txKind = .none ∧ s.ackReq = false ∧ s.msgPending = true ∧
      ∃ payload, s.messagePayload = some payload ∧
        t = { s with
          txKind := .msg, txSeq := s.msgSeq
          txRem := wire s.cfg (frameMsg s.cfg s.msgSeq s.msgOpcode payload)
          msgPending := false }) ∨
    (s.txKind = .none ∧ s.ackReq = false ∧ s.msgPending = false ∧ t = s) ∨
    (s.txKind = .ack ∧ s.txRem = [] ∧ t = completeAck s) ∨
    (s.txKind = .msg ∧ s.txRem = [] ∧ t = completeMessage s) ∨
    (s.txKind ≠ .none ∧ ∃ b rest, s.txRem = b :: rest ∧ t = txEmit ready b rest s) := by
  unfold txStep txLoad loadMessage at h
  simp only [hf] at h
  cases hk : s.txKind <;> cases hr : s.txRem <;> cases ha : s.ackReq <;> cases hm : s.msgPending <;>
    cases hp : s.messagePayload <;> simp_all

/-! ## A whole step -/

/-- A step that runs an instruction or an agent, by whose turn it is. -/
theorem step_cons {s : State} {t : Turn} {turns : List Turn} (h : s.sched = t :: turns) :
    step s = runAction (turn t { beginStep s with sched := turns }) := by
  simp only [step, nextAction, h]

@[simp] theorem runAction_run (i : Instr) (s : State) : runAction (.run i s) = exec i s := rfl

@[simp] theorem runAction_done (o : Host.Outcome State Fault Refusal) : runAction (.done o) = o := rfl

theorem step_nil {s : State} (h : s.sched = []) : step s = .next (beginStep s) := by
  simp only [step, nextAction, h, runAction]

/-- Everything a host's turn can do. -/
theorem hostTurn_cases (s : State) :
    (s.hostq = [] ∧ hostTurn s = .done (.next s)) ∨
    (∃ w rest, s.hostq = .command w :: rest ∧ commandReserved w ≠ 0#5 ∧ hostTurn s = .done (.refused (.notACommand w))) ∨
    (∃ w rest i, s.hostq = .command w :: rest ∧ decode s.cfg (.cw w) = .instr i ∧ s.hcReady (commandCode w) = true ∧
      hostTurn s = .run i { s with hostq := rest }) ∨
    (∃ w rest i, s.hostq = .command w :: rest ∧ decode s.cfg (.cw w) = .instr i ∧ s.hcReady (commandCode w) = false ∧
      hostTurn s = .done (.next s)) ∨
    (∃ w rest, s.hostq = .txbWrite w :: rest ∧ hostTurn s = .run (decodeTxbWrite w) { s with hostq := rest }) ∨
    (∃ addr rest, s.hostq = .rxbRead addr :: rest ∧ hostTurn s = .done (.next (readRxb addr { s with hostq := rest }))) := by
  unfold hostTurn
  cases hq : s.hostq with
  | nil => simp
  | cons a rest =>
    cases a with
    | txbWrite w => simp
    | rxbRead addr => simp
    | command w =>
      by_cases hr : commandReserved w = 0#5
      · cases hd : decode s.cfg (.cw w) with
        | reject e =>
          simp only [decode, decodeCommand] at hd
          rw [if_pos hr] at hd
          split at hd <;> simp at hd
        | instr i => cases hh : s.hcReady (commandCode w) <;> simp [fetchCommand, hd, hh]
      · exact .inr (.inl ⟨w, rest, rfl, hr, by simp [fetchCommand, decode_cw_reject _ hr]⟩)

/-- Everything an RX turn can do, not fatal (R125). -/
theorem rxTurn_cases {s : State} (hf : s.fatal = false) (offered : Bool) :
    (s.rxState.isByteState = true ∧ s.stopReq = true ∧ rxTurn offered s = .done (.next (rxStop s))) ∨
    (∃ ctx w rest, s.rxTakes ctx = true ∧ offered = true ∧ s.linkq = .byte w :: rest ∧
      rxTurn offered s = .run (decodeRxByte s.cfg ctx w) { s with linkq := rest }) ∨
    (∃ rest, s.rxState.isByteState = true ∧ s.stopReq = false ∧ offered = true ∧ s.linkq = .timeout :: rest ∧
      rxTurn offered s = .done (.next (rxTimeout { s with linkq := rest }))) ∨
    (s.rxState = .ackWait ∧ s.ackReq = false ∧ rxTurn offered s = .done (.next (rxAckDone s))) ∨
    ((s.rxReady = true → offered = false ∨ s.linkq = []) ∧ (s.rxState.isByteState = true → s.stopReq = false) ∧
      (s.rxState = .ackWait → s.ackReq = true) ∧ rxTurn offered s = .done (.next s)) := by
  unfold rxTurn rxPort
  cases hc : s.rxContext with
  | none =>
    have hb : s.rxState.isByteState = false := by
      simp only [State.rxContext] at hc
      split at hc <;> [simp at hc; split at hc] <;> simp_all [RxState.isByteState]
    cases hr : s.rxState <;> cases ha : s.ackReq <;> simp_all [RxState.isByteState, RxState.isAccum, State.rxReady]
  | some ctx =>
    have hb : s.rxState.isByteState = true := by
      rcases rxContext_eq_some.1 hc with h | h | h <;> simp [RxState.isByteState, h]
    have hw : s.rxState ≠ .ackWait := by rintro h; rw [h] at hb; simp [RxState.isByteState, RxState.isAccum] at hb
    cases hq : s.stopReq <;> cases offered <;> cases hl : s.linkq with
    | nil => simp_all [State.rxReady]
    | cons a rest => cases a <;> simp_all [State.rxReady, State.rxTakes]

end Sys2Proof.Machine
end

