-- ==== Sys2Proof/Laws/PerInstr.lean ====
section
/-! SUPPORT. Per instruction: the word of each row shows the row's fixed bits, as spec/opcode_table.json gives them, in the row's
format and context. -/

namespace Sys2Proof.Laws.FixedBits

/-- The bits of a command word from `lo` up are the given ones. -/
def commandShows (lo : Nat) {n : Nat} (value : BitVec n) : InstrWord → Prop
  | .cw w => w.extractLsb' lo n = value
  | _ => False

/-- The word is a wire byte read in the given context, equal to `b` where the row fixes it. -/
def byteShows (ctx : RxContext) (b : Option Byte) : InstrWord → Prop
  | .rxb ctx' w => ctx' = ctx ∧ ∀ x, b = some x → w = x
  | _ => False

/-- The word is a frame type, equal to `b` where the row fixes it. -/
def typeShows (b : Option Byte) : InstrWord → Prop
  | .ft t => ∀ x, b = some x → t = x
  | _ => False

/-- With the document's constants, the word of a well-formed instruction shows the fixed bits of its table row. -/
def Statement (i : Instr) : Prop :=
  i.wellFormed Config.default = true →
    match i with
    | .nop => commandShows 24 0#8 (encode Config.default i)
    | .start => commandShows 24 1#8 (encode Config.default i)
    | .stop => commandShows 24 2#8 (encode Config.default i)
    | .send _ _ => commandShows 24 3#8 (encode Config.default i)
    | .sendOversize _ => commandShows 17 511#15 (encode Config.default i)
    | .rxRelease => commandShows 24 4#8 (encode Config.default i)
    | .rsvd5 => commandShows 24 5#8 (encode Config.default i)
    | .rsvd6 => commandShows 24 6#8 (encode Config.default i)
    | .rsvd7 => commandShows 24 7#8 (encode Config.default i)
    | .txbWrite addr data => encode Config.default i = .tw (addr ++ data)
    | .rxHuntSync => byteShows .hunt (some 0xA4) (encode Config.default i)
    | .rxHuntDiscard _ => byteShows .hunt none (encode Config.default i)
    | .rxEscPrefix => byteShows .plain (some 0x1B) (encode Config.default i)
    | .rxLit _ => byteShows .plain none (encode Config.default i)
    | .rxEscSync => byteShows .escaped (some 0x53) (encode Config.default i)
    | .rxEscEsc => byteShows .escaped (some 0x1B) (encode Config.default i)
    | .rxEscBad _ => byteShows .escaped none (encode Config.default i)
    | .ftMsg => typeShows (some 0x00) (encode Config.default i)
    | .ftAck => typeShows (some 0x80) (encode Config.default i)
    | .ftOther _ => typeShows none (encode Config.default i)

theorem nop : Statement .nop := fun _ => by simp only [encode, commandShows]; decide

theorem start : Statement .start := fun _ => by simp only [encode, commandShows]; decide

theorem stop : Statement .stop := fun _ => by simp only [encode, commandShows]; decide

/-- The top byte of an encoded command is its code. -/
theorem encodeCommand_top (code : BitVec 3) (len : Byte) (opcode : Opcode) :
    (encodeCommand code len opcode).extractLsb' 24 8 = code.setWidth 8 := by
  ext i hi
  simp only [encodeCommand, BitVec.getElem_extractLsb', BitVec.getLsbD_append, BitVec.getElem_setWidth]
  rw [if_neg (by omega), if_neg (by omega), show 24 + i - 16 - 8 = i by omega]
  split
  · rfl
  · rw [BitVec.getLsbD_of_ge code i (by omega)]; simp

theorem send (opcode : Opcode) (len : Byte) : Statement (.send opcode len) := fun _ =>
  (encodeCommand_top 3 len opcode).trans (by decide)

theorem sendOversize (len : Byte) : Statement (.sendOversize len) := by
  revert len; unfold Statement; simp only [encode, commandShows]; decide

theorem rxRelease : Statement .rxRelease := fun _ => by simp only [encode, commandShows]; decide

theorem rsvd5 : Statement .rsvd5 := fun _ => by simp only [encode, commandShows]; decide

theorem rsvd6 : Statement .rsvd6 := fun _ => by simp only [encode, commandShows]; decide

theorem rsvd7 : Statement .rsvd7 := fun _ => by simp only [encode, commandShows]; decide

theorem txbWrite (addr data : Byte) : Statement (.txbWrite addr data) := fun _ => rfl

theorem rxHuntSync : Statement .rxHuntSync := fun _ => ⟨rfl, fun _ h => Option.some.inj h⟩

theorem rxHuntDiscard (w : Byte) : Statement (.rxHuntDiscard w) := fun _ => ⟨rfl, nofun⟩

theorem rxEscPrefix : Statement .rxEscPrefix := fun _ => ⟨rfl, fun _ h => Option.some.inj h⟩

theorem rxLit (w : Byte) : Statement (.rxLit w) := fun _ => ⟨rfl, nofun⟩

theorem rxEscSync : Statement .rxEscSync := fun _ => ⟨rfl, fun _ h => Option.some.inj h⟩

theorem rxEscEsc : Statement .rxEscEsc := fun _ => ⟨rfl, fun _ h => Option.some.inj h⟩

theorem rxEscBad (w : Byte) : Statement (.rxEscBad w) := fun _ => ⟨rfl, nofun⟩

theorem ftMsg : Statement .ftMsg := fun _ _ h => Option.some.inj h

theorem ftAck : Statement .ftAck := fun _ _ h => Option.some.inj h

theorem ftOther (t : Byte) : Statement (.ftOther t) := fun _ => nofun

end Sys2Proof.Laws.FixedBits
end

