-- ==== Sys2Proof/Laws/Run.lean ====
section
/-! SUPPORT. What a logical byte does to the deframer, what the invariant does not depend on, and how runs of steps are put
together. -/

namespace Sys2Proof.Machine

/-- An instruction that brings a logical byte is the intake of that byte, with no escape pending afterwards (R128). -/
theorem exec_of_bringsByte {s : State} {i : Instr} {b : Byte} (h : bringsByte s i b) :
    s.fatal = false ∧ s.stopReq = false ∧ s.rxState.isAccum = true ∧ exec i s = acceptByte b { s with rxEsc := false } := by
  rcases h with ⟨rfl, h⟩ | ⟨rfl, rfl, h⟩ | ⟨rfl, rfl, h⟩
  all_goals
    obtain ⟨hf, hq, hc⟩ := rxTakes_iff.1 h
    have hc := rxContext_eq_some.1 hc
    simp only [reduceCtorEq, false_and, true_and, false_or, or_false] at hc
    refine ⟨hf, hq, hc.1, ?_⟩
  · have hs : { s with rxEsc := false } = s := by rw [← hc.2]
    rw [hs]; exact if_pos h
  · exact if_pos h
  · exact if_pos h

/-- The invariant says nothing of the ports, the records and the environment's script. -/
theorem State.Inv.withSurroundings {s : State} (h : s.Inv) (rxEv txEv ctlEv : Option Event) (rxEvents txEvents ctlEvents : List Event)
    (linkOut : List Byte) (hostReads : List (Byte × Byte)) (linkq : List LinkItem) (hostq : List HostAction) (sched : List Turn)
    (ticks : Nat) :
    State.Inv { s with
      rxEv := rxEv, txEv := txEv, ctlEv := ctlEv, rxEvents := rxEvents, txEvents := txEvents, ctlEvents := ctlEvents
      linkOut := linkOut, hostReads := hostReads, linkq := linkq, hostq := hostq, sched := sched, ticks := ticks } := by
  obtain ⟨h1, h2, h3, h4, h5, h6, h7, h8, h9, h10, h11, h12, h13, h14⟩ := h
  exact ⟨h1, h2, h3, h4, h5, h6, h7, h8, h9, h10, h11, h12, h13, h14⟩

/-- Inside a frame the receiver requests no Ack and delivers nothing. -/
theorem State.Inv.ackReq_of_isAccum {s : State} (h : s.Inv) (ha : s.rxState.isAccum = true) : s.ackReq = false := by
  cases hr : s.ackReq with
  | false => rfl
  | true => rw [h.ackWhileWaiting hr] at ha; cases ha

/-! ## Runs -/

@[simp] theorem run_zero (s : State) : core.run 0 s = .next s := rfl

theorem run_succ {n : Nat} {s t : State} (h : step s = .next t) : core.run (n + 1) s = core.run n t := by
  have h' : core.step s = .next t := h
  simp only [Host.Core.run, h']

/-- A run that answers a next state took a first step. -/
theorem run_succ_inv {n : Nat} {s u : State} (h : core.run (n + 1) s = .next u) :
    ∃ t, step s = .next t ∧ core.run n t = .next u := by
  have hs : core.step s = step s := rfl
  simp only [Host.Core.run, hs] at h
  cases ht : step s with
  | next t => exact ⟨t, rfl, by simpa [ht] using h⟩
  | fault r => simp [ht] at h
  | refused r => simp [ht] at h

theorem run_add {m n : Nat} {s t : State} (h : core.run m s = .next t) : core.run (m + n) s = core.run n t := by
  induction m generalizing s with
  | zero => cases h; rw [Nat.zero_add]
  | succ m ih =>
    obtain ⟨u, hu, hr⟩ := run_succ_inv h
    rw [show m + 1 + n = m + n + 1 by omega, run_succ hu, ih hr]

/-- A property that every step keeps, holds after any run. -/
theorem run_induction {P : State → Prop} (hP : ∀ s t, P s → step s = .next t → P t) {n : Nat} {s t : State} (hs : P s)
    (h : core.run n s = .next t) : P t := by
  induction n generalizing s with
  | zero => cases h; exact hs
  | succ n ih =>
    obtain ⟨u, hu, hr⟩ := run_succ_inv h
    exact ih (hP s u hs hu) hr

end Sys2Proof.Machine
end

