-- ==== Sys2Proof/Laws/Step.lean ====
section
/-! SUPPORT. Everything a step can do, said once: by whose turn it is, and for the instruction a turn runs, by its effect. -/

namespace Sys2Proof.Machine

/-! ## The instruction a turn runs -/

/-- A command word decodes to one of the command rows (R80, R84); SEND fits exactly if its length says so. -/
theorem decode_cw_cases {c : Config} {w : CommandWord} {i : Instr} (h : decode c (.cw w) = .instr i) :
    i = .nop ∨ i = .start ∨ i = .stop ∨ (∃ opcode len, i = .send opcode len ∧ len.toNat ≤ c.maxPayload ∧ commandCode w = 3#3) ∨
    (∃ len, i = .sendOversize len ∧ c.maxPayload < len.toNat ∧ commandCode w = 3#3) ∨ i = .rxRelease ∨ i = .rsvd5 ∨
    i = .rsvd6 ∨ i = .rsvd7 := by
  simp only [decode, decodeCommand] at h
  split at h
  · have hc : ∀ n : Nat, (commandCode w).toNat = n → n < 8 → commandCode w = BitVec.ofNat 3 n := by
      intro n hn hlt
      apply BitVec.eq_of_toNat_eq
      simp only [BitVec.toNat_ofNat]
      omega
    split at h <;> simp only [Decoded.instr.injEq] at h
    case h_4 heq =>
      unfold decodeSend at h
      have h3 := hc 3 heq (by omega)
      split at h
      · exact .inr (.inr (.inr (.inl ⟨_, _, h.symm, ‹_›, h3⟩)))
      · exact .inr (.inr (.inr (.inr (.inl ⟨_, h.symm, by omega, h3⟩))))
    all_goals simp [← h]
  · simp at h

/-- Everything a command can do: nothing, START, STOP, an accepted SEND, a release, or one of the two command events. -/
theorem exec_command_cases {c : Config} {w : CommandWord} {i : Instr} {s t : State} (hd : decode c (.cw w) = .instr i)
    (h : exec i s = .next t) :
    t = s ∨
    (i = .start ∧ s.fatal = false ∧ t = { s with rxState := if s.rxState = .stopped then .hunt else s.rxState, stopReq := false }) ∨
    (i = .stop ∧ s.fatal = false ∧ s.rxState ≠ .stopped ∧ t = { s with stopReq := true }) ∨
    (∃ opcode len, i = .send opcode len ∧ s.fatal = false ∧ s.txMsgBusy = false ∧ len.toNat ≤ s.cfg.maxPayload ∧
      t = { s with msgOpcode := opcode, msgLen := len, msgSeq := s.seqNext, seqNext := s.seqNext + 1, msgPending := true }) ∨
    (i = .rxRelease ∧ s.fatal = false ∧ s.rxState = .deliver ∧ t = { s with rxState := .hunt }) ∨
    (s.fatal = false ∧ ∃ code arg, t = raiseCtl code arg s) := by
  rcases decode_cw_cases hd with
    rfl | rfl | rfl | ⟨o, l, rfl, hl, -⟩ | ⟨l, rfl, hl, -⟩ | rfl | rfl | rfl | rfl
  · cases h; exact .inl rfl
  · simp only [exec, execStart] at h
    cases hf : s.fatal <;> simp only [hf] at h <;> cases h
    · exact .inr (.inl ⟨rfl, rfl, rfl⟩)
    · exact .inl rfl
  · simp only [exec, execStop] at h
    cases hf : s.fatal <;> simp only [hf] at h
    · by_cases hs : s.rxState = .stopped
      · simp only [hs] at h; cases h; exact .inl rfl
      · have : (s.rxState == .stopped) = false := by simpa using hs
        simp only [this] at h; cases h; exact .inr (.inr (.inl ⟨rfl, rfl, hs, rfl⟩))
    · cases h; exact .inl rfl
  · simp only [exec, execSend] at h
    split at h <;> cases h
    · rename_i hc
      simp only [Bool.and_eq_true, sendAccepted_iff, decide_eq_true_eq] at hc
      exact .inr (.inr (.inr (.inl ⟨o, l, rfl, hc.1.1, hc.1.2, hc.2, rfl⟩)))
    · exact .inl rfl
  · simp only [exec, execSendOversize] at h
    split at h <;> cases h
    · rename_i hc
      simp only [Bool.and_eq_true, sendAccepted_iff, decide_eq_true_eq] at hc
      exact .inr (.inr (.inr (.inr (.inr ⟨hc.1.1, _, _, rfl⟩))))
    · exact .inl rfl
  · simp only [exec, execRxRelease] at h
    cases hf : s.fatal <;> simp only [hf] at h
    · by_cases hs : s.rxState = .deliver
      · rw [if_neg (by simp), if_pos hs] at h; cases h
        exact .inr (.inr (.inr (.inr (.inl ⟨rfl, rfl, hs, rfl⟩))))
      · rw [if_neg (by simp), if_neg hs] at h; cases h
        exact .inr (.inr (.inr (.inr (.inr ⟨rfl, _, _, rfl⟩))))
    · cases h; exact .inl rfl
  all_goals
    simp only [exec, execRsvd5, execRsvd6, execRsvd7, reservedCommand] at h
    cases hf : s.fatal <;> simp only [hf] at h <;> cases h
    · exact .inr (.inr (.inr (.inr (.inr ⟨rfl, _, _, rfl⟩))))
    · exact .inl rfl

/-- Everything a TXBUF write can do (R161, R162, R165). -/
theorem exec_txbWrite_cases {addr data : Byte} {s t : State} (h : exec (.txbWrite addr data) s = .next t) :
    (s.fatal = true ∧ t = s) ∨
    (s.fatal = false ∧ (s.txMsgBusy = true ∨ s.cfg.txbufSize ≤ addr.toNat) ∧ t = raiseCtl .txbWriteRefused addr s) ∨
    (s.fatal = false ∧ s.txMsgBusy = false ∧ addr.toNat < s.cfg.txbufSize ∧ t = { s with txbuf := Memory.write s.txbuf addr.toNat data }) := by
  simp only [exec, execTxbWrite] at h
  cases hf : s.fatal <;> simp only [hf] at h
  · rw [if_neg (by simp)] at h
    split at h <;> cases h
    · rename_i hc
      simp only [Bool.or_eq_true, decide_eq_true_eq] at hc
      exact .inr (.inl ⟨rfl, hc.imp_right (fun h => by omega), rfl⟩)
    · rename_i hc
      simp only [Bool.or_eq_true, decide_eq_true_eq, not_or, Bool.not_eq_true] at hc
      exact .inr (.inr ⟨rfl, hc.1, by omega, rfl⟩)
  · cases h; exact .inl ⟨rfl, rfl⟩

/-- Everything a taken wire byte can be: a frame's start, discarded, an escape, a logical byte, or a bad substitute (R127, R128). -/
theorem exec_wireByte_cases {s : State} {ctx : RxContext} (w : Byte) (ht : s.rxTakes ctx = true) :
    (s.rxState = .hunt ∧ w = s.cfg.sync ∧
      exec (decodeRxByte s.cfg ctx w) s = .next { s with rxSum := s.cfg.sync, rxEsc := false, rxState := .ver }) ∨
    (s.rxState = .hunt ∧ w ≠ s.cfg.sync ∧ exec (decodeRxByte s.cfg ctx w) s = .next s) ∨
    (s.rxState.isAccum = true ∧ s.rxEsc = false ∧ w = s.cfg.esc ∧
      exec (decodeRxByte s.cfg ctx w) s = .next { s with rxEsc := true }) ∨
    (s.rxState.isAccum = true ∧ s.rxEsc = true ∧ unstuff s.cfg w = none ∧
      exec (decodeRxByte s.cfg ctx w) s = .next (badEscape w { s with rxEsc := false })) ∨
    (∃ b, s.rxState.isAccum = true ∧ (s.rxEsc = false ∧ w ≠ s.cfg.esc ∧ b = w ∨ s.rxEsc = true ∧ unstuff s.cfg w = some b) ∧
      exec (decodeRxByte s.cfg ctx w) s = acceptByte b { s with rxEsc := false }) := by
  obtain ⟨-, -, hc⟩ := rxTakes_iff.1 ht
  rcases rxContext_eq_some.1 hc with ⟨rfl, hr⟩ | ⟨rfl, hr, he⟩ | ⟨rfl, hr, he⟩
  · by_cases hw : w = s.cfg.sync
    · refine .inl ⟨hr, hw, ?_⟩
      simp only [decodeRxByte]
      rw [if_pos hw]
      exact if_pos ht
    · refine .inr (.inl ⟨hr, hw, ?_⟩)
      simp only [decodeRxByte]
      rw [if_neg hw]
      rfl
  · by_cases hw : w = s.cfg.esc
    · refine .inr (.inr (.inl ⟨hr, he, hw, ?_⟩))
      simp only [decodeRxByte]
      rw [if_pos hw]
      exact if_pos ht
    · refine .inr (.inr (.inr (.inr ⟨w, hr, .inl ⟨he, hw, rfl⟩, ?_⟩)))
      simp only [decodeRxByte]
      rw [if_neg hw]
      exact (exec_of_bringsByte (.inl ⟨rfl, ht⟩)).2.2.2
  · rcases decodeRxByte_escaped s.cfg w with ⟨hu, hd⟩ | ⟨hu, hd⟩ | ⟨hu, hd⟩
    · exact .inr (.inr (.inr (.inl ⟨hr, he, hu, by rw [hd]; exact if_pos ht⟩)))
    · exact .inr (.inr (.inr (.inr ⟨_, hr, .inr ⟨he, hu⟩, by rw [hd]; exact if_pos ht⟩)))
    · exact .inr (.inr (.inr (.inr ⟨_, hr, .inr ⟨he, hu⟩, by rw [hd]; exact if_pos ht⟩)))

/-! ## A whole step -/

/-- Everything a step that answers a next state can do; `u` is the state once the turn is taken off the schedule and the event
ports are cleared. -/
theorem step_cases {s t : State} (h : step s = .next t) :
    (s.sched = [] ∧ t = beginStep s) ∨
    ∃ a turns, s.sched = a :: turns ∧ ∃ u, u = { beginStep s with sched := turns } ∧
      (t = u ∨
       (a = .reset ∧ t = applyReset u) ∨
       (a = .linkErr ∧ s.fatal = false ∧ t = linkError u) ∨
       (∃ w rest i, a = .host ∧ s.hostq = .command w :: rest ∧ decode s.cfg (.cw w) = .instr i ∧
         s.hcReady (commandCode w) = true ∧ exec i { u with hostq := rest } = .next t) ∨
       (∃ w rest, a = .host ∧ s.hostq = .txbWrite w :: rest ∧
         exec (.txbWrite (txbWordAddr w) (txbWordData w)) { u with hostq := rest } = .next t) ∨
       (∃ addr rest, a = .host ∧ s.hostq = .rxbRead addr :: rest ∧ t = readRxb addr { u with hostq := rest }) ∨
       (∃ offered, a = .rx offered ∧ s.fatal = false ∧ s.rxState.isByteState = true ∧ s.stopReq = true ∧ t = rxStop u) ∨
       (∃ ctx w rest, a = .rx true ∧ s.rxTakes ctx = true ∧ s.linkq = .byte w :: rest ∧
         exec (decodeRxByte s.cfg ctx w) { u with linkq := rest } = .next t) ∨
       (∃ rest, a = .rx true ∧ s.fatal = false ∧ s.rxState.isByteState = true ∧ s.stopReq = false ∧
         s.linkq = .timeout :: rest ∧ t = rxTimeout { u with linkq := rest }) ∨
       (∃ offered, a = .rx offered ∧ s.fatal = false ∧ s.rxState = .ackWait ∧ s.ackReq = false ∧ t = rxAckDone u) ∨
       (∃ ready, a = .tx ready ∧ s.fatal = false ∧ txStep ready u = .next t)) := by
  cases hs : s.sched with
  | nil => rw [step_nil hs] at h; cases h; exact .inl ⟨rfl, rfl⟩
  | cons a turns =>
    rw [step_cons hs] at h
    refine .inr ⟨a, turns, rfl, _, rfl, ?_⟩
    generalize hu : ({ beginStep s with sched := turns } : State) = u at h
    cases a with
    | reset => simp only [turn, runAction_done] at h; cases h; exact .inr (.inl ⟨rfl, rfl⟩)
    | linkErr =>
      simp only [turn, runAction_done] at h; cases h
      cases hf : s.fatal with
      | false => exact .inr (.inr (.inl ⟨rfl, rfl, rfl⟩))
      | true => subst hu; exact .inl (if_pos hf)
    | tx ready =>
      simp only [turn, runAction_done] at h
      cases hf : s.fatal with
      | false => exact .inr (.inr (.inr (.inr (.inr (.inr (.inr (.inr (.inr (.inr ⟨ready, rfl, rfl, h⟩)))))))))
      | true =>
        have : txStep ready u = .next u := by subst hu; exact if_pos hf
        rw [this] at h; cases h; exact .inl rfl
    | host =>
      have hq : u.hostq = s.hostq := by subst hu; rfl
      have hc : u.cfg = s.cfg := by subst hu; rfl
      have hr : ∀ code, u.hcReady code = s.hcReady code := by subst hu; exact fun _ => rfl
      simp only [turn] at h
      rcases hostTurn_cases u with
        ⟨h1, h2⟩ | ⟨w, r, h1, h2, h3⟩ | ⟨w, r, i, h1, h2, h3, h4⟩ | ⟨w, r, i, h1, h2, h3, h4⟩ | ⟨w, r, h1, h2⟩ | ⟨w, r, h1, h2⟩
      · rw [h2] at h; cases h; exact .inl rfl
      · rw [h3] at h; cases h
      · rw [h4] at h
        exact .inr (.inr (.inr (.inl ⟨w, r, i, rfl, hq ▸ h1, hc ▸ h2, hr _ ▸ h3, h⟩)))
      · rw [h4] at h; cases h; exact .inl rfl
      · rw [h2] at h
        exact .inr (.inr (.inr (.inr (.inl ⟨w, r, rfl, hq ▸ h1, h⟩))))
      · rw [h2] at h; cases h
        exact .inr (.inr (.inr (.inr (.inr (.inl ⟨w, r, rfl, hq ▸ h1, rfl⟩)))))
    | rx offered =>
      simp only [turn] at h
      cases hf : s.fatal with
      | true =>
        have : rxTurn offered u = .done (.next u) := by subst hu; exact if_pos hf
        rw [this] at h; cases h; exact .inl rfl
      | false =>
        have hfu : u.fatal = false := by subst hu; exact hf
        have hl : u.linkq = s.linkq := by subst hu; rfl
        have hc : u.cfg = s.cfg := by subst hu; rfl
        have hst : u.rxState = s.rxState := by subst hu; rfl
        have hq : u.stopReq = s.stopReq := by subst hu; rfl
        have ha : u.ackReq = s.ackReq := by subst hu; rfl
        have ht : ∀ ctx, u.rxTakes ctx = s.rxTakes ctx := by subst hu; exact fun _ => rfl
        rcases rxTurn_cases hfu offered with
          ⟨h1, h2, h3⟩ | ⟨ctx, w, r, h1, h2, h3, h4⟩ | ⟨r, h1, h2, h3, h4, h5⟩ | ⟨h1, h2, h3⟩ | ⟨-, -, -, h4⟩
        · rw [h3] at h; cases h
          exact .inr (.inr (.inr (.inr (.inr (.inr (.inl ⟨offered, rfl, rfl, hst ▸ h1, hq ▸ h2, rfl⟩))))))
        · rw [h4] at h
          exact .inr (.inr (.inr (.inr (.inr (.inr (.inr (.inl
            ⟨ctx, w, r, by rw [h2], ht ctx ▸ h1, hl ▸ h3, by rw [← hc]; exact h⟩)))))))
        · rw [h5] at h; cases h
          exact .inr (.inr (.inr (.inr (.inr (.inr (.inr (.inr (.inl
            ⟨r, by rw [h3], rfl, hst ▸ h1, hq ▸ h2, hl ▸ h4, rfl⟩))))))))
        · rw [h3] at h; cases h
          exact .inr (.inr (.inr (.inr (.inr (.inr (.inr (.inr (.inr (.inl ⟨offered, rfl, rfl, hst ▸ h1, ha ▸ h2, rfl⟩)))))))))
        · rw [h4] at h; cases h; exact .inl rfl

end Sys2Proof.Machine
end

