-- ==== Sys2Proof/Tests/Slice0.lean ====
section
/-! SUPPORT. The model's own tests. Expected values come from the spec's examples and vectors (spec/95_test_vectors.md, the rules'
examples) or are worked by hand from the rules; each group names its source. After them, one witness for each statement's hypotheses. -/

namespace Sys2Proof.Tests

open Sys2Proof.Machine

/-- What a next state shows under `f`; nothing for a fault or a refusal. -/
def after {α : Type} (o : Host.Outcome State Fault Refusal) (f : State → α) : Option α :=
  match o with
  | .next s => some (f s)
  | .fault _ => none
  | .refused _ => none

/-- A started receiver with an idle transmitter. -/
def running : State := { State.reset with rxState := .hunt }

/-- A receiver at a field of a frame, the sync byte summed. -/
def inField (r : RxState) : State := { State.reset with rxState := r, rxSum := 0xA4 }

/-- The same with an escape pending. -/
def escapedAt (r : RxState) : State := { inField r with rxEsc := true }

/-- A checksum byte just validated a frame of this type, its sequence number 0x07. -/
def validated (ty : Byte) : State := { State.reset with rxState := .cksum, rxType := ty, rxSeq := 0x07 }

/-- A Message of length 2 (opcode 0x0008) waiting for its Ack to go out. -/
def ackWaiting : State :=
  { State.reset with rxState := .ackWait, ackReq := true, rxSeq := 0x1B, rxLen := 2, rxIdx := 1, rxbuf := [(0, 0x00), (1, 0x08)] }

/-- The same Message in delivery. -/
def delivering : State := { ackWaiting with rxState := .deliver, ackReq := false }

/-- A Message queued behind nothing: opcode 0x000A, one payload byte. -/
def queued : State :=
  { State.reset with msgPending := true, msgOpcode := 0x000A, msgLen := 1, msgSeq := 0x05, seqNext := 0x06, txbuf := [(0, 0x33)] }

/-- A Message frame in flight with two bytes left. -/
def sending : State := { State.reset with txKind := .msg, txSeq := 0x05, txRem := [0x00, 0x11] }

/-- The fatal state after a link error in delivery. -/
def fatalState : State := { delivering with fatal := true, fatalCause := 0xD }

/-- The configuration in which an invalid escape is fatal (R9). -/
def strict : Config := { Config.default with escapeErrorFatal := true }

/-- An instance with smaller buffers (R8, I1). -/
def small : Config := { Config.default with maxPayload := 4, maxBody := 6 }

/-- A state with one turn to take. -/
def withTurn (t : Turn) (s : State) : State := { s with sched := [t] }

/-- A state whose host presents one action in its turn. -/
def withHost (a : HostAction) (s : State) : State := { s with sched := [.host], hostq := [a] }

/-- A state whose link offers one item in the receiver's turn. -/
def withLink (i : LinkItem) (s : State) : State := { s with sched := [.rx true], linkq := [i] }

/-! ## Well-formedness: one ill-formed term for each check -/

theorem test_wf_send : (Instr.send 0x000A 253).wellFormed Config.default = true := by decide
theorem test_illformed_send : (Instr.send 0x000A 254).wellFormed Config.default = false := by decide
theorem test_illformed_sendOversize : (Instr.sendOversize 253).wellFormed Config.default = false := by decide
theorem test_illformed_rxHuntDiscard : (Instr.rxHuntDiscard 0xA4).wellFormed Config.default = false := by decide
theorem test_illformed_rxLit : (Instr.rxLit 0x1B).wellFormed Config.default = false := by decide
theorem test_illformed_rxEscBad_subSync : (Instr.rxEscBad 0x53).wellFormed Config.default = false := by decide
theorem test_illformed_rxEscBad_subEsc : (Instr.rxEscBad 0x1B).wellFormed Config.default = false := by decide
theorem test_illformed_ftOther_msg : (Instr.ftOther 0x00).wellFormed Config.default = false := by decide
theorem test_illformed_ftOther_ack : (Instr.ftOther 0x80).wellFormed Config.default = false := by decide

/-! ## Decoding: words written out from R80, R81 and R84 -/

/-- CW[31:27] = 00000, CW[26:24] = 000. -/
theorem test_decode_nop : decode Config.default (.cw 0b00000_000_00000000_0000000000000000) = .instr .nop := by decide
/-- CW[26:24] = 001; the ignored fields are not 0 here. -/
theorem test_decode_start : decode Config.default (.cw 0b00000_001_11111111_1010101010101010) = .instr .start := by decide
/-- CW[26:24] = 010. -/
theorem test_decode_stop : decode Config.default (.cw 0b00000_010_00000000_0000000000000000) = .instr .stop := by decide
/-- CW[26:24] = 011, length 4, opcode 0x000A: the spec's 0x0304000A. -/
theorem test_decode_send :
    decode Config.default (.cw 0b00000_011_00000100_0000000000001010) = .instr (.send 0x000A 4) := by decide
/-- The largest payload, 253. -/
theorem test_decode_send_longest :
    decode Config.default (.cw 0b00000_011_11111101_1010010000011011) = .instr (.send 0xA41B 253) := by decide
/-- Length 254: the spec's 0x03FE0001. -/
theorem test_decode_sendOversize :
    decode Config.default (.cw 0b00000_011_11111110_0000000000000001) = .instr (.sendOversize 254) := by decide
/-- The limits are the configuration's (I1): with `MAX_PAYLOAD = 4` a SEND of 5 is oversize. -/
theorem test_decode_sendOversize_small : decode small (.cw 0x0305000A) = .instr (.sendOversize 5) := by decide
/-- CW[26:24] = 100. -/
theorem test_decode_rxRelease :
    decode Config.default (.cw 0b00000_100_00000000_0000000000000000) = .instr .rxRelease := by decide
/-- CW[26:24] = 101. -/
theorem test_decode_rsvd5 : decode Config.default (.cw 0b00000_101_00000000_0000000000000000) = .instr .rsvd5 := by decide
/-- CW[26:24] = 110. -/
theorem test_decode_rsvd6 : decode Config.default (.cw 0b00000_110_00000000_0000000000000000) = .instr .rsvd6 := by decide
/-- CW[26:24] = 111. -/
theorem test_decode_rsvd7 : decode Config.default (.cw 0b00000_111_00000000_0000000000000000) = .instr .rsvd7 := by decide
/-- CW[31:27] ≠ 0: no command (V-CTL-9). -/
theorem test_decode_reserved_bits :
    decode Config.default (.cw 0b00001_000_00000000_0000000000000000) = .reject (.notACommand 0x08000000) := by decide
/-- TW[15:8] = 0xFC, TW[7:0] = 0x01 (V-CTL-11). -/
theorem test_decode_txbWrite : decode Config.default (.tw 0b11111100_00000001) = .instr (.txbWrite 0xFC 0x01) := by decide
/-- SYNC = 0xA4 in HUNT. -/
theorem test_decode_rxHuntSync : decode Config.default (.rxb .hunt 0b10100100) = .instr .rxHuntSync := by decide
/-- ESC in HUNT is discarded (R127). -/
theorem test_decode_rxHuntDiscard :
    decode Config.default (.rxb .hunt 0b00011011) = .instr (.rxHuntDiscard 0x1B) := by decide
/-- ESC = 0x1B inside a frame. -/
theorem test_decode_rxEscPrefix : decode Config.default (.rxb .plain 0b00011011) = .instr .rxEscPrefix := by decide
/-- A raw SYNC inside a frame is data (R145). -/
theorem test_decode_rxLit : decode Config.default (.rxb .plain 0b10100100) = .instr (.rxLit 0xA4) := by decide
/-- SUB_SYNC = 0x53 after ESC. -/
theorem test_decode_rxEscSync : decode Config.default (.rxb .escaped 0b01010011) = .instr .rxEscSync := by decide
/-- SUB_ESC = 0x1B after ESC. -/
theorem test_decode_rxEscEsc : decode Config.default (.rxb .escaped 0b00011011) = .instr .rxEscEsc := by decide
/-- SYNC after ESC is a bad escape (R94). -/
theorem test_decode_rxEscBad : decode Config.default (.rxb .escaped 0b10100100) = .instr (.rxEscBad 0xA4) := by decide
/-- TYPE_MSG = 0x00. -/
theorem test_decode_ftMsg : decode Config.default (.ft 0b00000000) = .instr .ftMsg := by decide
/-- TYPE_ACK = 0x80. -/
theorem test_decode_ftAck : decode Config.default (.ft 0b10000000) = .instr .ftAck := by decide
/-- With `TYPE_MSG = TYPE_ACK` the frame is a Message, by the model's choice (log entry 21). -/
theorem test_decode_same_types : decode { Config.default with typeAck := 0x00 } (.ft 0x00) = .instr .ftMsg := by decide
/-- Any other type. -/
theorem test_decode_ftOther : decode Config.default (.ft 0b00000001) = .instr (.ftOther 0x01) := by decide

/-- Table words: 32 bits a command, 16 a TXBUF write, 8 a byte. -/
theorem test_decodeTableWord :
    decodeTableWord 32 0x0304000A = some (.send 0x000A 4) ∧ decodeTableWord 32 0x08000000 = none ∧
    decodeTableWord 16 0x0033 = some (.txbWrite 0x00 0x33) ∧ decodeTableWord 8 0xA4 = some .rxHuntSync ∧
    decodeTableWord 8 0x53 = some .rxEscSync := by decide

/-! ## The codec: vectors V-CK, V-ST, V-FR -/

theorem test_checksum :
    checksum [] = 0x00 ∧ checksum [0xFF, 0x01] = 0x00 ∧ checksum [0xA4, 0x03, 0x00, 0x00, 0x80, 0x00] = 0x27 := by decide
theorem test_cks : cks [0xA4, 0x03, 0x00, 0x00, 0x80, 0x00] = 0xD9 ∧ cks [0x01] = 0xFF ∧ cks [0x80, 0x80] = 0x00 := by decide
theorem test_verify :
    verify [0xA4, 0x03, 0x00, 0x00, 0x80, 0x00, 0xD9] = true ∧ verify [0xA4, 0x03, 0x00, 0x00, 0x80, 0x00, 0xD8] = false ∧
    verify [0xA4, 0x03, 0x00, 0x01, 0x80, 0xFF, 0xD9] = true := by decide
theorem test_stuff :
    stuff Config.default 0xA4 = [0x1B, 0x53] ∧ stuff Config.default 0x1B = [0x1B, 0x1B] ∧ stuff Config.default 0x53 = [0x53] := by
  decide
theorem test_unstuff :
    unstuff Config.default 0x53 = some 0xA4 ∧ unstuff Config.default 0x1B = some 0x1B ∧ unstuff Config.default 0xA4 = none := by
  decide
theorem test_wire :
    wire Config.default [0xA4, 0xA4] = [0xA4, 0x1B, 0x53] ∧
    wire Config.default [0xA4, 0x53, 0x1B, 0x1B] = [0xA4, 0x53, 0x1B, 0x1B, 0x1B, 0x1B] := by decide
theorem test_frameAck :
    wire Config.default (frameAck Config.default 0xBE) = [0xA4, 0x03, 0x00, 0xBE, 0x80, 0x00, 0x1B, 0x1B] := by decide
theorem test_frameMsg :
    wire Config.default (frameMsg Config.default 0x02 0xA41B [0xA4, 0x1B, 0x53]) =
      [0xA4, 0x03, 0x00, 0x02, 0x00, 0x05, 0x1B, 0x53, 0x1B, 0x1B, 0x1B, 0x53, 0x1B, 0x1B, 0x53, 0x81] := by decide

/-! ## Host commands and buffer ports: V-CTL, V-TX and the rules' examples -/

/-- V-CTL-8. -/
theorem test_nop : after (exec .nop delivering) (fun t => decide (t = delivering)) = some true := by decide
/-- V-CTL-1, and `rx_ready` (R156). -/
theorem test_start : after (exec .start State.reset) (fun t => (t.rxState, t.rxReady)) = some (.hunt, true) := by decide
/-- V-CTL-4. -/
theorem test_start_cancels_stop :
    after (exec .start { ackWaiting with stopReq := true }) (fun t => (t.rxState, t.stopReq)) = some (.ackWait, false) := by decide
/-- R157, example. -/
theorem test_stop : after (exec .stop running) (fun t => (t.rxState, t.stopReq)) = some (.hunt, true) := by decide
/-- V-CTL-3. -/
theorem test_stop_stopped : after (exec .stop State.reset) (fun t => (t.rxState, t.stopReq)) = some (.stopped, false) := by decide
/-- V-TX-1. -/
theorem test_send :
    after (exec (.send 0x000A 4) { State.reset with seqNext := 0x05 })
      (fun t => (t.msgPending, t.msgOpcode, t.msgLen, t.msgSeq, t.seqNext)) = some (true, 0x000A, 4, 0x05, 0x06) := by decide
/-- V-TX-4: the counter wraps. -/
theorem test_send_wraps :
    after (exec (.send 0x0009 0) { State.reset with seqNext := 0xFF }) (fun t => (t.msgSeq, t.seqNext)) = some (0xFF, 0x00) := by
  decide
/-- V-TX-3. -/
theorem test_sendOversize :
    after (exec (.sendOversize 254) State.reset) (fun t => (t.ctlEv, t.seqNext, t.msgPending)) =
      some (some ⟨.cmdRejectOversize, 0xFE⟩, 0x00, false) := by decide
/-- V-CTL-6. -/
theorem test_rxRelease : after (exec .rxRelease delivering) (fun t => (t.rxState, t.rxFrameValid)) = some (.hunt, false) := by decide
/-- V-CTL-5. -/
theorem test_rxRelease_illegal :
    after (exec .rxRelease running) (fun t => (t.rxState, t.ctlEv)) = some (.hunt, some ⟨.cmdIllegal, 0x04⟩) := by decide
/-- V-CTL-7. -/
theorem test_rsvd5 : after (exec .rsvd5 running) (fun t => t.ctlEv) = some (some ⟨.cmdIllegal, 0x05⟩) := by decide
/-- V-CTL-7. -/
theorem test_rsvd6 : after (exec .rsvd6 running) (fun t => t.ctlEv) = some (some ⟨.cmdIllegal, 0x06⟩) := by decide
/-- V-CTL-7. -/
theorem test_rsvd7 : after (exec .rsvd7 running) (fun t => t.ctlEv) = some (some ⟨.cmdIllegal, 0x07⟩) := by decide
/-- V-CTL-11. -/
theorem test_txbWrite :
    after (exec (.txbWrite 0xFC 0x01) State.reset) (fun t => (Memory.read t.txbuf 252, t.txbWritten 252, t.txbWritten 251)) =
      some (some 0x01, true, false) := by decide
/-- With `MAX_PAYLOAD = 4` the index 4 lies outside TXBUF (I1). -/
theorem test_txbWrite_small :
    after (exec (.txbWrite 4 1) { State.reset with cfg := small }) (fun t => (t.txbuf, t.ctlEv)) =
      some ([], some ⟨.txbWriteRefused, 4⟩) := by decide
/-- V-CTL-13. -/
theorem test_txbWrite_refused :
    after (exec (.txbWrite 0x00 0x44) { queued with msgPending := false, txKind := .msg })
      (fun t => (Memory.read t.txbuf 0, t.ctlEv)) = some (some 0x33, some ⟨.txbWriteRefused, 0x00⟩) := by decide
/-- V-CTL-9. -/
theorem test_step_refuses_reserved_bits :
    (match step (withHost (.command 0x08000000) State.reset) with
      | .refused r => decide (r = .notACommand 0x08000000)
      | _ => false) = true := by decide
/-- V-CTL-15: the read of the opcode's low byte. -/
theorem test_rxb_read : after (step (withHost (.rxbRead 1) delivering)) (fun t => t.hostReads) = some [(0x01, 0x08)] := by decide

/-! ## Wire bytes: V-RX and the rules' examples -/

/-- R127, example. -/
theorem test_rxHuntSync : after (exec .rxHuntSync running) (fun t => (t.rxState, t.rxSum)) = some (.ver, 0xA4) := by decide
/-- V-RX-1. -/
theorem test_rxHuntDiscard :
    after (exec (.rxHuntDiscard 0x1B) running) (fun t => (t.rxState, t.rxEsc, t.rxEv)) = some (.hunt, false, none) := by decide
/-- R128, example: the ESC byte does not move the deframer. -/
theorem test_rxEscPrefix :
    after (exec .rxEscPrefix (inField .seq)) (fun t => (t.rxState, t.rxEsc, t.rxSum)) = some (.seq, true, 0xA4) := by decide
/-- R130, example. -/
theorem test_rxLit :
    after (exec (.rxLit 0x03) (inField .ver)) (fun t => (t.rxState, t.rxVer, t.rxSum)) = some (.mod, 0x03, 0xA7) := by decide
/-- V-RX-5: the checksum byte D8 after a sum of 27 leaves FF. -/
theorem test_rxLit_bad_checksum :
    after (exec (.rxLit 0xD8) { inField .cksum with rxSum := 0x27 }) (fun t => (t.rxState, t.rxEv)) =
      some (.hunt, some ⟨.rxDropChecksum, 0xFF⟩) := by decide
/-- R128, example: `1B 53` in SEQ is the sequence number A4. -/
theorem test_rxEscSync :
    after (exec .rxEscSync (escapedAt .seq)) (fun t => (t.rxState, t.rxSeq, t.rxEsc)) = some (.type, 0xA4, false) := by decide
/-- R132, example. -/
theorem test_rxEscEsc :
    after (exec .rxEscEsc (escapedAt .seq)) (fun t => (t.rxState, t.rxSeq, t.rxEsc)) = some (.type, 0x1B, false) := by decide
/-- R129, example. -/
theorem test_rxEscBad :
    after (exec (.rxEscBad 0x00) (escapedAt .body)) (fun t => (t.rxState, t.rxEsc, t.rxEv)) =
      some (.hunt, false, some ⟨.rxDropBadEscape, 0x00⟩) := by decide
/-- V-RX-12. -/
theorem test_rxEscBad_fatal :
    after (exec (.rxEscBad 0x00) { escapedAt .seq with cfg := strict })
      (fun t => (t.rxState, t.rxEv, t.stFatal, t.stFatalCause)) =
      some (.seq, some ⟨.fatalBadEscape, 0x00⟩, true, 0xE) := by decide

/-! ## Frame types and engine steps -/

/-- R137. -/
theorem test_ftMsg : after (exec .ftMsg (validated 0x00)) (fun t => (t.rxState, t.ackReq, t.rxReady)) = some (.ackWait, true, false) := by
  decide
/-- V-RX-4. -/
theorem test_ftAck :
    after (exec .ftAck (validated 0x80)) (fun t => (t.rxState, t.rxEv, t.ackReq)) = some (.hunt, some ⟨.rxAckSeen, 0x07⟩, false) := by
  decide
/-- V-RX-6. -/
theorem test_ftOther :
    after (exec (.ftOther 0x01) (validated 0x01)) (fun t => (t.rxState, t.rxEv, t.ackReq)) =
      some (.hunt, some ⟨.rxDropUnknownType, 0x01⟩, false) := by decide
/-- R109, example. -/
theorem test_load_ack :
    after (step (withTurn (.tx true) ackWaiting)) (fun t => (t.txKind, t.txRem)) =
      some (.ack, [0xA4, 0x03, 0x00, 0x1B, 0x1B, 0x80, 0x00, 0xBE]) := by decide
/-- R110, by hand: A4 + 03 + 05 + 03 + 0A + 33 = EC, so the checksum is 14. -/
theorem test_load_message :
    after (step (withTurn (.tx true) queued)) (fun t => (t.txKind, t.msgPending, t.txRem)) =
      some (.msg, false, [0xA4, 0x03, 0x00, 0x05, 0x00, 0x03, 0x00, 0x0A, 0x33, 0x14]) := by decide
/-- V-TX-10. -/
theorem test_load_unwritten :
    (match step (withTurn (.tx true) { queued with txbuf := [] }) with
      | .fault r => decide (r = .unwrittenTxbuf)
      | _ => false) = true := by decide
/-- R112. -/
theorem test_emit : after (step (withTurn (.tx true) sending)) (fun t => (t.linkOut, t.txRem)) = some ([0x00], [0x11]) := by decide
/-- V-TX-9. -/
theorem test_emit_waits : after (step (withTurn (.tx false) sending)) (fun t => (t.linkOut, t.txValid, t.txData)) = some ([], true, 0x00) := by
  decide
/-- R114, example. -/
theorem test_complete_message :
    after (step (withTurn (.tx true) { sending with txRem := [] })) (fun t => (t.txKind, t.txEv)) =
      some (.none, some ⟨.txMsgDone, 0x05⟩) := by decide
/-- V-TX-11. -/
theorem test_complete_ack :
    after (step (withTurn (.tx true) { ackWaiting with txKind := .ack, txSeq := 0x1B })) (fun t => (t.txKind, t.ackReq, t.txEv)) =
      some (.none, false, some ⟨.txAckDone, 0x1B⟩) := by decide
/-- R140. -/
theorem test_deliver :
    after (step (withTurn (.rx false) { ackWaiting with ackReq := false }))
      (fun t => (t.rxState, t.rxEv, t.rxOpcode, t.rxPlen)) = some (.deliver, some ⟨.rxMsgReady, 0x1B⟩, 0x0008, 0) := by decide
/-- V-RX-8. -/
theorem test_short_message :
    after (step (withTurn (.rx false) { ackWaiting with ackReq := false, rxLen := 1 })) (fun t => (t.rxState, t.rxEv)) =
      some (.hunt, some ⟨.rxDropShortMsg, 0x01⟩) := by decide
/-- V-RX-14. -/
theorem test_timeout :
    after (step (withLink .timeout (escapedAt .seq))) (fun t => (t.rxState, t.rxEsc, t.rxEv)) =
      some (.hunt, false, some ⟨.rxDropShortFrame, 0x04⟩) := by decide
/-- V-RX-23. -/
theorem test_stop_in_body :
    after (step (withTurn (.rx true) { inField .body with stopReq := true })) (fun t => (t.rxState, t.stopReq, t.rxEv)) =
      some (.stopped, false, some ⟨.rxAbortStop, 0x07⟩) := by decide
/-- V-RX-26. -/
theorem test_stopped_takes_nothing :
    after (step (withLink (.byte 0xA4) State.reset)) (fun t => (t.rxState, t.linkq)) = some (.stopped, [.byte 0xA4]) := by decide
/-- V-CTL-17. -/
theorem test_link_error :
    after (step (withTurn .linkErr running)) (fun t => (t.stFatal, t.stFatalCause, t.ctlEv, t.stRxState)) =
      some (true, 0xD, some ⟨.fatalLink, 0x00⟩, 0x1) := by decide
/-- V-RST-2. -/
theorem test_reset :
    after (step (withTurn .reset fatalState)) (fun t => (t.stFatal, t.stFatalCause, t.rxState, t.rxEv)) =
      some (false, 0x0, .stopped, none) := by decide
/-- A placed word is the next step's instruction, right after reset. -/
theorem test_withFetchWord :
    after (step (State.reset.withFetchWord 32 0x01000000)) (fun t => t.rxState) = some .hunt ∧
    after (step (State.reset.withFetchWord 16 0xFC01)) (fun t => t.txbuf) = some [(252, 0x01)] ∧
    after (step (State.reset.withFetchWord 8 0xA4)) (fun t => t.rxState) = some .ver ∧
    after (step (State.reset.withFetchWord 8 0x1B)) (fun t => t.rxEsc) = some true ∧
    after (step (State.reset.withFetchWord 8 0x53)) (fun t => t.rxVer) = some 0xA4 ∧
    after (step (State.reset.withFetchWord 8 0x00)) (fun t => t.rxState) = some .ackWait ∧
    after (step (State.reset.withFetchWord 8 0x80)) (fun t => t.rxEv) = some (some ⟨.rxAckSeen, 0x00⟩) ∧
    after (step (State.reset.withFetchWord 8 0x77)) (fun t => t.rxState) = some .hunt := by decide


/-! ## Witnesses: for each statement with hypotheses, states and operands that meet them, at the boundary of each clause -/

theorem test_meets_NopStartStopEffects : State.reset.fatal = false ∧ running.fatal = false ∧ running.rxState ≠ .stopped := by decide

theorem test_meets_SendFillsSlotOrWaits :
    State.reset.fatal = false ∧ (253 : Byte).toNat ≤ State.reset.cfg.maxPayload ∧ State.reset.txMsgBusy = false ∧
    queued.fatal = false ∧ queued.txMsgBusy = true ∧ sending.txMsgBusy = true := by decide

theorem test_meets_OversizeSendIsRejected :
    State.reset.fatal = false ∧ State.reset.cfg.maxPayload < (254 : Byte).toNat ∧ State.reset.cfg.maxPayload < (255 : Byte).toNat ∧
    State.reset.txMsgBusy = false ∧
    sending.fatal = false ∧ sending.txMsgBusy = true := by decide

theorem test_meets_ReleaseHuntsOrIsIllegal :
    delivering.fatal = false ∧ delivering.rxState = .deliver ∧ running.fatal = false ∧ running.rxState ≠ .deliver := by decide

theorem test_meets_ReservedCodesRaiseIllegal :
    State.reset.fatal = false ∧ commandReserved 0x05FFFFFF = 0#5 ∧ commandCode 0x05FFFFFF = 5#3 ∧
    commandReserved 0x06000001 = 0#5 ∧ commandCode 0x06000001 = 6#3 ∧ commandReserved 0x07000000 = 0#5 ∧
    commandCode 0x07000000 = 7#3 ∧ commandReserved 0xFD000000 ≠ 0#5 := by decide

theorem test_meets_FatalStateDiscardsCommandsAndWrites :
    fatalState.fatal = true ∧ (withTurn .host fatalState).sched.head? ≠ some .reset ∧
    (after (step (withTurn .host fatalState)) (fun _ => ())).isSome = true := by decide

theorem test_meets_TxbWriteStoresOrIsRefused :
    State.reset.fatal = false ∧ State.reset.txMsgBusy = false ∧ (252 : Byte).toNat < State.reset.cfg.maxPayload ∧
    State.reset.cfg.maxPayload ≤ (253 : Byte).toNat ∧ State.reset.cfg.maxPayload ≤ (255 : Byte).toNat ∧ queued.fatal = false ∧ queued.txMsgBusy = true := by decide

/-- Each command row of the frame answers a next state. -/
theorem test_meets_CommandRowsFrame :
    ∀ i ∈ [Instr.nop, .start, .stop, .send 0x000A 4, .sendOversize 4, .rxRelease, .rsvd5, .rsvd6, .rsvd7],
      (after (exec i running) (fun _ => ())).isSome = true := by decide

theorem test_meets_TxbWriteFrame : (after (exec (.txbWrite 252 1) running) (fun t => t.txbuf)) = some [(252, 1)] := by decide

theorem test_meets_HuntStartsFrameOnSyncOnly : running.rxTakes .hunt = true := by decide

/-- All three ways to bring a logical byte, in each header field. -/
theorem test_meets_HeaderBytesAreStored :
    bringsByte (inField .ver) (.rxLit 0x03) 0x03 ∧ bringsByte (inField .mod) (.rxLit 0x00) 0x00 ∧
    bringsByte (escapedAt .seq) .rxEscSync 0xA4 ∧ bringsByte (escapedAt .type) .rxEscEsc 0x1B := by
  unfold bringsByte; decide

theorem test_meets_LengthByteLeadsToBodyOrChecksum :
    bringsByte (inField .len) (.rxLit 0x00) 0x00 ∧ bringsByte (inField .len) (.rxLit 0xFF) 0xFF ∧ (inField .len).rxState = .len := by
  unfold bringsByte; decide

/-- A body of 255 bytes at its first, its last but one and its last byte. -/
theorem test_meets_BodyByteGoesToRxbuf :
    bringsByte { inField .body with rxLen := 255, rxIdx := 0 } (.rxLit 0x77) 0x77 ∧
    bringsByte { escapedAt .body with rxLen := 255, rxIdx := 253 } .rxEscEsc 0x1B ∧
    bringsByte { inField .body with rxLen := 255, rxIdx := 254 } (.rxLit 0x77) 0x77 ∧
    (254 : Byte).toNat < (inField .body).cfg.maxBody ∧ (254 : Byte) + 1 = 255 ∧ (inField .body).rxState = .body := by
  unfold bringsByte; decide

theorem test_meets_ChecksumByteDropsOrDispatches :
    bringsByte { inField .cksum with rxSum := 0x27 } (.rxLit 0xD8) 0xD8 ∧ (0x27 : Byte) + 0xD8 ≠ 0 ∧
    bringsByte { inField .cksum with rxSum := 0x27 } (.rxLit 0xD9) 0xD9 ∧ (0x27 : Byte) + 0xD9 = 0 := by
  unfold bringsByte; decide

theorem test_meets_EscapeArmsAndBadSubstituteEndsFrame :
    (inField .seq).rxTakes .plain = true ∧ (escapedAt .body).rxTakes .escaped = true ∧
    (0xA4 : Byte) ≠ Config.default.subSync ∧ (0xA4 : Byte) ≠ Config.default.subEsc ∧
    (escapedAt .body).cfg.escapeErrorFatal = false ∧
    ({ escapedAt .body with cfg := strict } : State).rxTakes .escaped = true ∧ strict.escapeErrorFatal = true ∧
    (0xA4 : Byte) ≠ strict.subSync ∧ (0xA4 : Byte) ≠ strict.subEsc := by decide

/-- Each wire-byte row answers a next state; the stop at an index outside RXBUF; and each context not taken. -/
theorem test_meets_WireByteRowsFrame :
    (∀ i ∈ [Instr.rxHuntSync, .rxHuntDiscard 0x00, .rxEscPrefix, .rxLit 0x00, .rxEscSync, .rxEscEsc, .rxEscBad 0x00],
      (after (exec i (inField .ver)) (fun _ => ())).isSome = true) ∧
    bringsByte { inField .body with rxIdx := 255 } (.rxLit 0x00) 0x00 ∧ (inField .body).cfg.maxBody ≤ (255 : Byte).toNat ∧
    State.reset.rxTakes .hunt = false ∧ (escapedAt .ver).rxTakes .plain = false ∧ (inField .ver).rxTakes .escaped = false := by
  unfold bringsByte; decide

theorem test_meets_ValidFrameIsDispatchedByType :
    (validated 0x00).atDispatch = true ∧ (0x00 : Byte) = Config.default.typeMsg ∧
    (validated 0x80).atDispatch = true ∧ (0x80 : Byte) = Config.default.typeAck ∧
    (validated 0x01).atDispatch = true ∧ (0x01 : Byte) ≠ Config.default.typeMsg ∧ (0x01 : Byte) ≠ Config.default.typeAck := by
  decide

theorem test_meets_FrameTypeRowsFrame :
    (∀ i ∈ [Instr.ftMsg, .ftAck, .ftOther 0x80], (after (exec i (validated 0x80)) (fun _ => ())).isSome = true) ∧
    running.atDispatch = false ∧ (validated 0x01).rxType ≠ 0x00 := by decide

theorem test_meets_StepRunsDecodedInstruction :
    (withHost (.command 0x0304000A) State.reset).sched = [.host] ∧
    (withHost (.command 0x0304000A) State.reset).hostq = [.command 0x0304000A] ∧
    decode Config.default (.cw 0x0304000A) = .instr (.send 0x000A 4) ∧ State.reset.hcReady (commandCode 0x0304000A) = true ∧
    (withHost (.txbWrite 0x0033) State.reset).hostq = [.txbWrite 0x0033] ∧
    (withLink (.byte 0xA4) running).linkq = [.byte 0xA4] ∧ (withLink (.byte 0xA4) running).sched = [.rx true] ∧
    (withLink (.byte 0xA4) running).rxTakes .hunt = true ∧ (withLink (.byte 0x1B) (inField .ver)).rxTakes .plain = true ∧
    (withLink (.byte 0x53) (escapedAt .ver)).rxTakes .escaped = true := by decide

/-- A ready SEND, a ready command while a Message is busy, a fatal state's SEND, a SEND that waits, and a word that is no command. -/
theorem test_meets_CommandPortHoldsSendAndRefusesNonCommands :
    decode Config.default (.cw 0x0304000A) = .instr (.send 0x000A 4) ∧ State.reset.txMsgBusy = false ∧
    State.reset.hcReady 3 = true ∧ decode Config.default (.cw 0x01000000) = .instr .start ∧
    commandCode 0x01000000 ≠ 3#3 ∧ queued.hcReady 1 = true ∧ fatalState.fatal = true ∧ queued.hcReady 3 = false ∧
    commandReserved 0x0304000A = 0#5 ∧ commandCode 0x0304000A = 3#3 ∧ queued.fatal = false ∧ queued.txMsgBusy = true ∧
    (withHost (.command 0x0304000A) queued).hostq = [.command 0x0304000A] ∧ commandReserved 0x08000000 ≠ 0#5 := by decide

theorem test_meets_StopTakesEffectAtByteBoundary :
    ({ inField .body with stopReq := true } : State).fatal = false ∧ (inField .body).rxState.isByteState = true ∧
    running.rxState.isByteState = true ∧ (withTurn (.rx true) { running with stopReq := true }).stopReq = true ∧
    ({ delivering with stopReq := true } : State).rxState = .deliver ∧ ackWaiting.rxState = .ackWait := by decide

theorem test_meets_TimeoutDropsOnlyAPartialFrame :
    (withLink .timeout running).linkq = [.timeout] ∧ (withLink .timeout running).fatal = false ∧
    (withLink .timeout running).stopReq = false ∧ running.rxState = .hunt ∧ (inField .ver).rxState.isAccum = true ∧
    (inField .cksum).rxState.isAccum = true := by decide

theorem test_meets_AckWaitEndsInDeliveryOrShortDrop :
    ackWaiting.fatal = false ∧ ackWaiting.rxState = .ackWait ∧ ackWaiting.ackReq = true ∧
    ({ ackWaiting with ackReq := false } : State).ackReq = false ∧ 2 ≤ ackWaiting.rxLen.toNat ∧
    ({ ackWaiting with ackReq := false, rxLen := 1 } : State).rxLen.toNat < 2 := by decide

theorem test_meets_RxPortTakesExactlyWhenReady :
    (withLink (.byte 0xA4) running).rxReady = true ∧ (withLink (.byte 0xA4) delivering).rxReady = false ∧
    (after (step (withLink (.byte 0xA4) running)) (fun t => t.linkq)) = some [] ∧
    (after (step (withLink (.byte 0xA4) delivering)) (fun t => t.linkq)) = some [.byte 0xA4] ∧
    (after (step (withLink .timeout delivering)) (fun t => t.linkq)) = some [.timeout] ∧
    ({ withLink (.byte 0xA4) running with sched := [.rx false] } : State).stopReq = false ∧ running.rxState = .hunt ∧
    (inField .body).rxState.isAccum = true ∧ (inField .body).stopReq = false := by decide

theorem test_meets_LoadTakesAckBeforeMessage :
    ackWaiting.fatal = false ∧ ackWaiting.txKind = .none ∧ ackWaiting.ackReq = true ∧
    queued.fatal = false ∧ queued.txKind = .none ∧ queued.ackReq = false ∧ queued.msgPending = true ∧
    [(0x33 : Byte)].length = queued.msgLen.toNat ∧
    (∀ i < queued.msgLen.toNat, Memory.read queued.txbuf i = [(0x33 : Byte)][i]?) := by decide

theorem test_meets_UnwrittenPayloadIsAFault :
    ({ queued with txbuf := [] } : State).msgPending = true ∧ 0 < queued.msgLen.toNat ∧
    ({ queued with txbuf := [] } : State).txbWritten 0 = false ∧ queued.txKind = .none ∧ queued.ackReq = false := by decide

theorem test_meets_EmitHandsHeadToLink :
    sending.fatal = false ∧ sending.txKind ≠ .none ∧ sending.txRem = 0x00 :: [0x11] := by decide

theorem test_meets_CompleteEndsTheFrame :
    ({ sending with txRem := [] } : State).txRem = [] ∧ sending.fatal = false ∧ sending.txKind = .msg ∧
    ({ ackWaiting with txKind := .ack } : State).txKind = .ack ∧ ackWaiting.txRem = [] ∧ ackWaiting.fatal = false := by decide

theorem test_meets_LinkErrorEntersFatalState :
    (withTurn .linkErr running).sched = [.linkErr] ∧ (withTurn .linkErr running).fatal = false ∧
    (withTurn .linkErr fatalState).fatal = true := by decide

theorem test_meets_ResetRestoresEveryRegister : (withTurn .reset fatalState).sched = [.reset] := by decide

/-- The delivering state meets the invariant. -/
theorem test_delivering_inv (hosts : List HostAction) (turns : List Turn) :
    ({ delivering with hostq := hosts, sched := turns } : State).Inv := by
  constructor <;> simp only [delivering, ackWaiting, State.reset, State.resetWith] <;> decide

theorem test_meets_DeliveryShowsTheFrame :
    (withHost (.rxbRead 1) delivering).Inv ∧ (withHost (.rxbRead 1) delivering).sched = [.host] ∧
    (withHost (.rxbRead 1) delivering).hostq = [.rxbRead 1] ∧ delivering.fatal = false ∧ delivering.rxState = .deliver ∧
    (1 : Byte).toNat < delivering.rxLen.toNat ∧ delivering.rxLen.toNat ≤ (2 : Byte).toNat ∧ State.reset.rxState ≠ .deliver :=
  ⟨test_delivering_inv _ _, by decide⟩

theorem test_meets_ClockInputsAreOrdered :
    some (0x0033 : TxbWord) = some 0x0033 ∧ some (0x03010001 : CommandWord) = some 0x03010001 := by decide

theorem test_meets_SingleByteErrorIsDetected :
    (0xD9 : Byte) ≠ 0xD8 ∧ verify ([0xA4, 0x03, 0x00, 0x00, 0x80, 0x00] ++ 0xD9 :: []) = true ∧
    verify ([0xA4, 0x03, 0x00] ++ 0x00 :: [0x80] ++ 0x00 :: [0xD9]) = true := by decide

theorem test_meets_StuffedLengthIsExact :
    Config.default.wf = true ∧ (stuff Config.default 0xA4)[1]? = some 0x53 ∧ (stuff Config.default 0x1B)[1]? = some 0x1B := by decide

theorem test_meets_WireFrameIsAtMost519Bytes : (List.replicate 253 (0x1B : Byte)).length ≤ 253 :=
  Nat.le_of_eq List.length_replicate

theorem test_meets_DecodeInvertsEncode :
    Config.default.wf = true ∧ Config.default.typeMsg ≠ Config.default.typeAck ∧
    (Instr.send 0xFFFF 253).wellFormed Config.default = true ∧ (Instr.rxEscBad 0xA4).wellFormed Config.default = true := by decide

theorem test_meets_DecodedInstructionsAreWellFormed :
    decode Config.default (.cw 0x03FDFFFF) = .instr (.send 0xFFFF 253) ∧
    decode Config.default (.cw 0x08000000) = .reject (.notACommand 0x08000000) ∧
    decode Config.default (.rxb .plain 0xA4) = .instr (.rxLit 0xA4) := by decide

theorem test_meets_EveryStepKeepsInvariant :
    (withHost (.command 0x04000000) delivering).Inv ∧
    after (step (withHost (.command 0x04000000) delivering)) (fun t => t.rxState) = some .hunt ∧ 255 ≤ delivering.cfg.maxBody :=
  ⟨test_delivering_inv _ _, by decide⟩

theorem test_meets_EveryStepKeepsTxRemBounded :
    (withTurn (.tx true) delivering).Inv ∧
    delivering.cfg = { Config.default with
      maxBody := delivering.cfg.maxBody, escapeErrorFatal := delivering.cfg.escapeErrorFatal, seqInit := delivering.cfg.seqInit } ∧
    delivering.txRem.length ≤ 519 ∧ (after (step (withTurn (.tx true) delivering)) (fun _ => ())).isSome = true :=
  ⟨test_delivering_inv _ _, by decide⟩

theorem test_meets_FatalStateIsFrozenUntilReset :
    (withLink (.byte 0xA4) fatalState).fatal = true ∧ (∀ turns, (withLink (.byte 0xA4) fatalState).sched ≠ .reset :: turns) ∧
    (after (step (withLink (.byte 0xA4) fatalState)) (fun t => t.linkq)) = some [.byte 0xA4] :=
  ⟨rfl, (fun _ h => by cases h), by decide⟩

theorem test_meets_FatalStateHasTwoCauses :
    (withTurn .linkErr running).fatal = false ∧ after (step (withTurn .linkErr running)) (fun t => t.fatal) = some true ∧
    (withLink (.byte 0x00) { escapedAt .seq with cfg := strict }).fatal = false ∧
    after (step (withLink (.byte 0x00) { escapedAt .seq with cfg := strict })) (fun t => t.fatal) = some true := by decide

theorem test_meets_FuzzedReceiverIsNeverFatal :
    (withLink (.byte 0x00) (escapedAt .seq)).fatal = false ∧ (escapedAt .seq).cfg.escapeErrorFatal = false ∧
    Turn.linkErr ∉ (withLink (.byte 0x00) (escapedAt .seq)).sched ∧
    after (core.run 1 (withLink (.byte 0x00) (escapedAt .seq))) (fun t => State.rxState t) = some .hunt := by decide

/-- A receiver at the version byte with 522 timeouts before it. -/
def longWait : State :=
  { inField .ver with linkq := List.replicate 522 .timeout, sched := List.replicate 522 (.rx true) ++ [] }

theorem test_meets_FrameEndsWithin522Bytes :
    longWait.rxState = .ver ∧ longWait.rxEsc = false ∧ longWait.fatal = false ∧ longWait.stopReq = false ∧
    longWait.cfg.escapeErrorFatal = false ∧ 255 ≤ longWait.cfg.maxBody ∧ longWait.sched = List.replicate 522 (.rx true) ++ [] ∧ 522 ≤ longWait.linkq.length :=
  ⟨rfl, rfl, rfl, rfl, rfl, by decide, rfl, Nat.le_of_eq List.length_replicate.symm⟩

theorem test_meets_CounterAdvancesOnlyOnSend :
    after (step (withHost (.command 0x0300000A) State.reset)) (fun t => (t.seqNext, t.msgSeq)) = some (0x01, 0x00) ∧
    decode Config.default (.cw 0x0300000A) = .instr (.send 0x000A 0) ∧
    after (step (withTurn .reset queued)) (fun t => t.seqNext) = some 0x00 ∧
    after (step (withTurn (.tx true) queued)) (fun t => t.seqNext) = some 0x06 := by decide

/-- A Message frame in flight, in a state that meets the invariant. -/
theorem test_meets_FramesDoNotInterleave :
    (withTurn (.tx true) sending).Inv ∧ after (step (withTurn (.tx true) sending)) (fun t => t.linkOut) = some [0x00] ∧
    sending.txRem ≠ [] ∧ (∀ turns, (withTurn (.tx false) sending).sched ≠ .reset :: turns) :=
  ⟨by constructor <;> simp only [withTurn, sending, State.reset, State.resetWith] <;> decide, by decide, by decide,
    fun _ h => by cases h⟩

theorem test_meets_TxbufIsFixedWhileMessageBusy :
    (withHost (.txbWrite 0x0044) queued).txMsgBusy = true ∧
    (∀ turns, (withHost (.txbWrite 0x0044) queued).sched ≠ .reset :: turns) ∧
    after (step (withHost (.txbWrite 0x0044) queued)) (fun t => t.txbuf) = some [(0, 0x33)] :=
  ⟨by decide, (fun _ h => by cases h), by decide⟩

theorem test_meets_DeliveryIsStable :
    (withHost (.command 0x04000000) delivering).rxState = .deliver ∧
    (∀ turns, (withHost (.command 0x04000000) delivering).sched ≠ .reset :: turns) ∧
    after (step (withHost (.command 0x04000000) delivering)) (fun t => decide (t.rxState ≠ .deliver)) = some true :=
  ⟨rfl, (fun _ h => by cases h), by decide⟩

theorem test_meets_AckPrecedesDelivery :
    after (step (withTurn (.rx false) { ackWaiting with ackReq := false })) (fun t => t.rxState) = some .deliver ∧
    after (step (withTurn (.tx true) { ackWaiting with txKind := .ack })) (fun t => t.ackReq) = some false ∧
    ackWaiting.ackReq = true ∧
    (∀ turns, (withTurn (.tx true) { ackWaiting with txKind := .ack }).sched ≠ .reset :: turns) :=
  ⟨by decide, by decide, rfl, fun _ h => by cases h⟩

/-- A checksum byte that validates a Message, in a state that meets the invariant. -/
theorem test_meets_ChecksumComesFirst :
    (withLink (.byte 0x5C) (inField .cksum)).Inv ∧ (withLink (.byte 0x5C) (inField .cksum)).ackReq = false ∧
    after (step (withLink (.byte 0x5C) (inField .cksum))) (fun t => t.ackReq) = some true ∧
    after (step (withTurn (.rx true) { ackWaiting with ackReq := false })) (fun t => t.rxEv) = some (some ⟨.rxMsgReady, 0x1B⟩) :=
  ⟨by constructor <;> simp only [withLink, inField, State.reset, State.resetWith] <;> decide, by decide⟩

theorem test_meets_ReceiverNeverTouchesTransmitter :
    (withLink (.byte 0xA4) running).sched = [.rx true] ∧ (after (step (withLink (.byte 0xA4) running)) (fun _ => ())).isSome = true := by
  decide

theorem test_meets_OneEventPerPortPerStep :
    after (step (withTurn .linkErr running)) (fun t => (t.ctlEvents, t.ctlEv)) = some ([⟨.fatalLink, 0⟩], some ⟨.fatalLink, 0⟩) := by
  decide

theorem test_meets_QuiescentStateHasNoEngineStep :
    State.reset.quiescent = true ∧ delivering.quiescent = true ∧ running.quiescent = true ∧ queued.quiescent = false ∧
    queued.fatal = false ∧ queued.rxState.isAccum = false ∧ { running with stopReq := true }.quiescent = false ∧
    (withLink (.byte 0x00) (inField .seq)).quiescent = false ∧ (withLink (.byte 0x00) (inField .seq)).linkq ≠ [] := by decide

theorem test_meets_ReceiverAcceptsWireFrame :
    running.cfg.wf = true ∧ 255 ≤ running.cfg.maxBody ∧ (List.replicate 253 (0xA4 : Byte)).length ≤ 253 ∧ running.fatal = false ∧ running.stopReq = false ∧
    running.rxState = .hunt :=
  ⟨by decide, by decide, Nat.le_of_eq List.length_replicate, rfl, rfl, rfl⟩

/-- The turns of R100's second half, for the Ack of sequence number 0x05. -/
def ackTurns : List Turn :=
  List.replicate ((wire Config.default (frameAck Config.default 0x05)).length + 2) (.tx true) ++ .rx false :: []

theorem test_meets_SentMessageIsAcknowledgedAndDelivered :
    running.cfg.wf = true ∧ 255 ≤ running.cfg.maxBody ∧ [(0x33 : Byte)].length ≤ 253 ∧ running.fatal = false ∧ running.stopReq = false ∧
    running.rxState = .hunt ∧ running.txKind = .none ∧ ({ running with sched := ackTurns } : State).sched = ackTurns := by decide

end Sys2Proof.Tests
end

/-! PROOFS. A turn that takes a word from a port, and the step that runs it (R39, R40, R83, R84). -/

namespace Sys2Proof.Machine

/-- A host's turn with a command that decodes and is ready takes it off the port and runs it (R39, R43). -/
theorem hostTurn_of_ready {s : State} {w : CommandWord} {rest : List HostAction} {i : Instr} (hq : s.hostq = .command w :: rest)
    (hd : decode s.cfg (.cw w) = .instr i) (hr : s.hcReady (commandCode w) = true) :
    hostTurn s = .run i { s with hostq := rest } := by
  simp only [hostTurn, hq, fetchCommand, hd, hr, if_true]

/-- A host's turn with a TXBUF write takes it off the port and runs it (R40). -/
theorem hostTurn_of_txbWrite {s : State} {w : TxbWord} {rest : List HostAction} (hq : s.hostq = .txbWrite w :: rest) :
    hostTurn s = .run (decodeTxbWrite w) { s with hostq := rest } := by
  simp only [hostTurn, hq]

/-- An offered RX turn of a deframer that takes bytes in `ctx` takes the byte off the link and runs its row there (R84, R125). -/
theorem rxTurn_of_byte {s : State} {ctx : RxContext} {w : Byte} {rest : List LinkItem} (ht : s.rxTakes ctx = true)
    (hl : s.linkq = .byte w :: rest) :
    rxTurn true s = .run (decodeRxByte s.cfg ctx w) { s with linkq := rest } := by
  obtain ⟨hf, hq, hc⟩ := rxTakes_iff.1 ht
  simp only [rxTurn, hf, hc, hq, rxPort, hl, Bool.false_eq_true, if_false]

/-- Settles O19: the turn's own lemma for each of the three ports, run from the state whose turn has been taken off. -/
theorem stepRunsDecodedInstruction : Obligations.StepRunsDecodedInstruction := by
  refine ⟨fun s w i acts turns hs hq hd hr => ?_, fun s w acts turns hs hq => ?_, fun s w ctx items turns hs hl ht => ?_⟩
  all_goals rw [step_cons hs]
  · exact congrArg runAction (hostTurn_of_ready (s := { beginStep s with sched := turns }) hq hd hr)
  · exact congrArg runAction (hostTurn_of_txbWrite (s := { beginStep s with sched := turns }) hq)
  · exact congrArg runAction (rxTurn_of_byte (s := { beginStep s with sched := turns }) ht hl)

end Sys2Proof.Machine

/-! PROOFS. The frame of the wire-byte rows: what each can do, which fields the deframer's rules write, and what they leave. -/

namespace Sys2Proof.Machine

/-! ## What a receiver's rule leaves unchanged -/

/-- `s` with the receiver's registers, RXBUF, the RX event port and the fatal registers of `u`: all that a wire byte may change. -/
def State.withReceiverOf (s u : State) : State :=
  { s with
    rxState := u.rxState, rxEsc := u.rxEsc, rxSum := u.rxSum, rxVer := u.rxVer, rxMod := u.rxMod, rxSeq := u.rxSeq
    rxType := u.rxType, rxLen := u.rxLen, rxIdx := u.rxIdx, ackReq := u.ackReq, rxbuf := u.rxbuf
    rxEv := u.rxEv, rxEvents := u.rxEvents, fatal := u.fatal, fatalCause := u.fatalCause }

/-- A state that differs from `s` in the receiver alone has the rest of `s`. -/
theorem frame_of_eq_withReceiverOf {s t u : State} (h : t = s.withReceiverOf u) :
    sameTxbuf s t ∧ sameTransmitter s t ∧ t.stopReq = s.stopReq ∧ sameTxEvents s t ∧ sameCtlEvents s t ∧ sameSurroundings s t := by
  subst h
  exact ⟨fun _ => rfl, ⟨rfl, rfl, rfl, rfl, rfl, rfl, rfl, rfl⟩, rfl, ⟨rfl, rfl⟩, ⟨rfl, rfl⟩, rfl, rfl, rfl, rfl, rfl, rfl, rfl⟩

/-- Each header register, `rx_idx` and `ack_req` keep their values outside the states whose rules write them (R131 to R136). -/
def headerWrittenInPlace (s t : State) : Prop :=
  (s.rxState ≠ .ver → t.rxVer = s.rxVer) ∧ (s.rxState ≠ .mod → t.rxMod = s.rxMod) ∧
  (s.rxState ≠ .seq → t.rxSeq = s.rxSeq) ∧ (s.rxState ≠ .type → t.rxType = s.rxType) ∧
  (s.rxState ≠ .len → t.rxLen = s.rxLen) ∧ (s.rxState ≠ .len → s.rxState ≠ .body → t.rxIdx = s.rxIdx) ∧
  (s.rxState ≠ .cksum → t.ackReq = s.ackReq)

/-- The frame of a wire byte taken in state `s`, the fatal registers apart. -/
def wireByteFrame (s t : State) : Prop :=
  (∀ a : Nat, (a ≠ s.rxIdx.toNat ∨ s.rxState ≠ .body) → Memory.read t.rxbuf a = Memory.read s.rxbuf a) ∧
  t = s.withReceiverOf t ∧ headerWrittenInPlace s t

/-- A rule that writes neither RXBUF, nor a header register, nor `rx_idx`, nor `ack_req` keeps the frame in every state. -/
theorem wireByteFrame_of_same {s t : State} (hrest : t = s.withReceiverOf t) (hbuf : t.rxbuf = s.rxbuf)
    (hreg : t.rxVer = s.rxVer ∧ t.rxMod = s.rxMod ∧ t.rxSeq = s.rxSeq ∧ t.rxType = s.rxType ∧ t.rxLen = s.rxLen ∧
      t.rxIdx = s.rxIdx ∧ t.ackReq = s.ackReq) : wireByteFrame s t := by
  obtain ⟨hver, hmod, hseq, htype, hlen, hidx, hack⟩ := hreg
  exact ⟨fun _ _ => by rw [hbuf], hrest, fun _ => hver, fun _ => hmod, fun _ => hseq, fun _ => htype, fun _ => hlen,
    fun _ _ => hidx, fun _ => hack⟩

/-! ## The rule of a field -/

/-- The rule of a field keeps the frame of its state, and never touches the fatal registers (R130 to R136). -/
theorem rxField_frame {b : Byte} {s t : State} (hs : s.rxState.isAccum = true) (hf : s.fatal = false) (hq : s.stopReq = false)
    (h : rxField b s = .next t) : wireByteFrame s t ∧ sameFatal s t := by
  rcases rxField_cases hs hf hq h with
    ⟨hr, rfl⟩ | ⟨hr, rfl⟩ | ⟨hr, rfl⟩ | ⟨hr, rfl⟩ | ⟨hr, rfl⟩ | ⟨hr, -, -, rfl⟩ | ⟨hr, -, -, rfl⟩ | ⟨hr, -, rfl⟩ |
    ⟨hr, -, -, rfl⟩ | ⟨hr, -, -, rfl⟩ | ⟨hr, -, -, -, rfl⟩
  all_goals refine ⟨⟨?_, rfl, by simp [headerWrittenInPlace, hr]⟩, rfl, rfl⟩
  any_goals exact fun _ _ => rfl
  -- the two forms of a body byte write RXBUF, at `rx_idx` alone
  all_goals exact fun a ha => Memory.read_write_other _ _ (ha.resolve_right (not_not_intro hr))

theorem rxField_body_outside {b : Byte} {s : State} (hr : s.rxState = .body) (hi : s.cfg.rxbufSize ≤ s.rxIdx.toNat) :
    rxField b s = .fault .rxbufIndex := by
  simp only [rxField, hr, rxBodyByte, if_neg (Nat.not_lt.2 hi)]

/-! ## The rows -/

/-- A row whose context is not taken does not happen (R13, R127, R128). -/
theorem exec_decodeRxByte_of_not_takes {s : State} {ctx : RxContext} (w : Byte) (h : s.rxTakes ctx = false) :
    exec (decodeRxByte s.cfg ctx w) s = .next s := by
  have hg : ¬ s.rxTakes ctx = true := by simp [h]
  cases ctx <;> simp only [decodeRxByte]
  case hunt => split <;> [exact if_neg hg; rfl]
  case plain => split <;> exact if_neg hg
  case escaped => split <;> [skip; split] <;> exact if_neg hg

/-- Everything a wire-byte row that answers a next state can do, its context taken or not (R127 to R129). -/
theorem exec_wireByteRow_cases {i : Instr} {s t : State} {w : Byte}
    (hi : i ∈ [Instr.rxHuntSync, .rxHuntDiscard w, .rxEscPrefix, .rxLit w, .rxEscSync, .rxEscEsc, .rxEscBad w])
    (h : exec i s = .next t) :
    (∃ b, bringsByte s i b) ∨ (i = .rxEscBad w ∧ t = badEscape w { s with rxEsc := false }) ∨ t = s ∨
    t = { s with rxSum := s.cfg.sync, rxEsc := false, rxState := .ver } ∨ t = { s with rxEsc := true } := by
  simp only [List.mem_cons, List.not_mem_nil, or_false] at hi
  rcases hi with rfl | rfl | rfl | rfl | rfl | rfl | rfl <;> simp only [exec] at h
  · unfold execRxHuntSync at h
    split at h <;> cases h <;> simp
  · cases h; exact .inr (.inr (.inl rfl))
  · unfold execRxEscPrefix at h
    split at h <;> cases h <;> simp
  · unfold execRxLit at h
    split at h
    · exact .inl ⟨w, .inl ⟨rfl, ‹_›⟩⟩
    · cases h; exact .inr (.inr (.inl rfl))
  · unfold execRxEscSync at h
    split at h
    · exact .inl ⟨_, .inr (.inl ⟨rfl, rfl, ‹_›⟩)⟩
    · cases h; exact .inr (.inr (.inl rfl))
  · unfold execRxEscEsc at h
    split at h
    · exact .inl ⟨_, .inr (.inr ⟨rfl, rfl, ‹_›⟩)⟩
    · cases h; exact .inr (.inr (.inl rfl))
  · unfold execRxEscBad at h
    split at h <;> cases h <;> simp

/-- An invalid escape writes no header register and no buffer, whether it drops the frame or is fatal (R129). -/
theorem badEscape_frame (w : Byte) (s : State) : wireByteFrame s (badEscape w { s with rxEsc := false }) := by
  unfold badEscape
  split <;> exact wireByteFrame_of_same rfl rfl ⟨rfl, rfl, rfl, rfl, rfl, rfl, rfl⟩

/-- Every wire-byte row keeps the frame, and all but an invalid escape keep the fatal registers. -/
theorem exec_wireByteRow_frame {i : Instr} {s t : State} {w : Byte}
    (hi : i ∈ [Instr.rxHuntSync, .rxHuntDiscard w, .rxEscPrefix, .rxLit w, .rxEscSync, .rxEscEsc, .rxEscBad w])
    (h : exec i s = .next t) : wireByteFrame s t ∧ (i ≠ .rxEscBad w → sameFatal s t) := by
  rcases exec_wireByteRow_cases hi h with ⟨b, hb⟩ | ⟨rfl, rfl⟩ | rfl | rfl | rfl
  · obtain ⟨hf, hq, hs, he⟩ := exec_of_bringsByte hb
    obtain ⟨hframe, hfatal⟩ := rxField_frame (s := { s with rxEsc := false, rxSum := s.rxSum + b }) hs hf hq (he.symm.trans h)
    exact ⟨hframe, fun _ => hfatal⟩
  · exact ⟨badEscape_frame w s, fun hne => absurd rfl hne⟩
  all_goals exact ⟨wireByteFrame_of_same rfl rfl ⟨rfl, rfl, rfl, rfl, rfl, rfl, rfl⟩, fun _ => ⟨rfl, rfl⟩⟩

/-- Settles O16: the guard row by row, the stop from the rule of BODY, and the frame from what each row can do. -/
theorem wireByteRowsFrame : Obligations.WireByteRowsFrame := by
  refine ⟨fun _ _ w h => exec_decodeRxByte_of_not_takes w h, fun s i b hb hr hi => ?_, fun i s t w hi h => ?_⟩
  · obtain ⟨-, -, -, he⟩ := exec_of_bringsByte hb
    exact he.trans (rxField_body_outside (s := { s with rxEsc := false, rxSum := s.rxSum + b }) hr hi)
  · obtain ⟨⟨hbuf, hrest, hheader⟩, hfatal⟩ := exec_wireByteRow_frame hi h
    obtain ⟨htxbuf, htx, hstop, htxEv, hctl, hsur⟩ := frame_of_eq_withReceiverOf hrest
    exact ⟨hbuf, htxbuf, htx, hstop, htxEv, hctl, hsur, hfatal, hheader⟩

end Sys2Proof.Machine

/-! PROOFS. The frame of the frame-type rows. -/

namespace Sys2Proof.Machine

/-- A frame-type row with nothing validated, or for another type, does not happen (R13, R137 to R139). -/
theorem exec_decodeFrameType_of_not_dispatched {s : State} {ty : Byte} (h : s.atDispatch = false ∨ s.rxType ≠ ty) :
    exec (decodeFrameType s.cfg ty) s = .next s := by
  have hg : ¬ (s.atDispatch && s.rxType == ty) = true := by simpa [imp_iff_not_or] using h
  unfold decodeFrameType
  by_cases hm : ty = s.cfg.typeMsg
  · rw [if_pos hm]; exact if_neg (hm ▸ hg)
  · rw [if_neg hm]
    by_cases ha : ty = s.cfg.typeAck
    · rw [if_pos ha]; exact if_neg (ha ▸ hg)
    · rw [if_neg ha]; exact if_neg hg

/-- Everything a frame-type row can do: nothing, or its own rule (R137 to R139). -/
theorem exec_frameTypeRow_cases {i : Instr} {s t : State} {ty : Byte} (hi : i ∈ [Instr.ftMsg, .ftAck, .ftOther ty])
    (h : exec i s = .next t) :
    t = s ∨ (i = .ftMsg ∧ t = { s with rxState := .ackWait, ackReq := true }) ∨
    (i = .ftAck ∧ t = { raiseRx .rxAckSeen s.rxSeq s with rxState := .hunt }) ∨
    (i = .ftOther ty ∧ t = frameAbort .rxDropUnknownType ty s) := by
  simp only [List.mem_cons, List.not_mem_nil, or_false] at hi
  rcases hi with rfl | rfl | rfl
  · simp only [exec, execFtMsg] at h
    split at h <;> cases h <;> simp
  · simp only [exec, execFtAck] at h
    split at h <;> cases h <;> simp
  · simp only [exec, execFtOther] at h
    split at h <;> cases h <;> simp

/-- What a frame-type row may write: `rx_state`, `rx_esc`, the Ack request and the RX event port, FT_MSG the request but no event
and the others an event but no request. -/
theorem exec_frameTypeRow_writes {i : Instr} {s t : State} {ty : Byte} (hi : i ∈ [Instr.ftMsg, .ftAck, .ftOther ty])
    (h : exec i s = .next t) :
    ∃ r e a ev evs, t = { s with rxState := r, rxEsc := e, ackReq := a, rxEv := ev, rxEvents := evs } ∧
      (i ≠ .ftMsg → a = s.ackReq) ∧ (i = .ftMsg → (ev = s.rxEv ∧ evs = s.rxEvents) ∧ e = s.rxEsc) := by
  rcases exec_frameTypeRow_cases hi h with rfl | ⟨rfl, rfl⟩ | ⟨rfl, rfl⟩ | ⟨rfl, rfl⟩
  · exact ⟨_, _, _, _, _, rfl, fun _ => rfl, fun _ => ⟨⟨rfl, rfl⟩, rfl⟩⟩
  · exact ⟨_, _, _, _, _, rfl, fun hne => absurd rfl hne, fun _ => ⟨⟨rfl, rfl⟩, rfl⟩⟩
  · exact ⟨_, _, _, _, _, rfl, fun _ => rfl, nofun⟩
  · exact ⟨_, _, _, _, _, rfl, fun _ => rfl, nofun⟩

/-- Settles O18: the guard row by row, and the frame read off the fields a row may write. -/
theorem frameTypeRowsFrame : Obligations.FrameTypeRowsFrame := by
  refine ⟨fun _ _ h => exec_decodeFrameType_of_not_dispatched h, fun i s t ty hi h => ?_⟩
  obtain ⟨r, e, a, ev, evs, rfl, hack, hmsg⟩ := exec_frameTypeRow_writes hi h
  obtain ⟨htxbuf, htx, hstop, htxEv, hctl, hsur⟩ := frame_of_eq_withReceiverOf (s := s)
    (u := { s with rxState := r, rxEsc := e, ackReq := a, rxEv := ev, rxEvents := evs }) rfl
  exact ⟨fun _ => rfl, htxbuf, htx, ⟨rfl, rfl⟩, hstop, htxEv, hctl, hsur,
    ⟨rfl, rfl, rfl, rfl, rfl, rfl, rfl, rfl, rfl, rfl⟩, hack, hmsg⟩

end Sys2Proof.Machine

/-! PROOFS. The invariant of the registers: reset meets it, each rule keeps it, and so every step does (R22 to R34, R50, R135). -/

namespace Sys2Proof.Machine

/-! ## Reset, fatal state and host -/

/-- Settles O43: both buffers and `tx_rem` are empty, no flag is set, and `STOPPED` is the premise of no implication. -/
theorem resetMeetsInvariant : Obligations.ResetMeetsInvariant := fun _ =>
  { txbufWf := rfl, rxbufWf := rfl, escInFrame := nofun, idxBelowLen := nofun, bodyStored := nofun, frameStored := nofun
    validated := nofun, hasOpcode := nofun, stopWhileRunning := nofun, ackWhileWaiting := nofun, ackInFlight := nofun
    slot := nofun, idleEmpty := fun _ => rfl, cause := rfl }

theorem applyReset_inv (s : State) : (applyReset s).Inv := (resetMeetsInvariant s.cfg).withSurroundings ..

/-- The fatal state freezes every register the invariant speaks of but the cause itself (R181, R182). -/
theorem raiseFatal_inv {s : State} (h : s.Inv) {k : EventCode} (hk : k.code = 0xD ∨ k.code = 0xE) : (raiseFatal k s).Inv :=
  { h with cause := hk }

theorem linkError_inv {s : State} (h : s.Inv) : (linkError s).Inv := by
  unfold linkError
  split
  · exact h
  · exact raiseFatal_inv (h.withSurroundings ..) (.inl rfl)

theorem exec_txbWrite_inv {addr data : Byte} {s t : State} (h : s.Inv) (he : exec (.txbWrite addr data) s = .next t) :
    t.Inv := by
  rcases exec_txbWrite_cases he with ⟨-, rfl⟩ | ⟨-, -, rfl⟩ | ⟨-, -, hlt, rfl⟩
  · exact h
  · exact h.withSurroundings ..
  · exact { h with txbufWf := Memory.write_wf data hlt h.txbufWf }

theorem State.Inv.ackReq_of_ne {s : State} (h : s.Inv) (hr : s.rxState ≠ .ackWait) : s.ackReq = false :=
  Bool.eq_false_iff.2 fun ha => hr (h.ackWhileWaiting ha)

/-- Outside `BODY` and what follows it, the header registers and the sum are free: the invariant speaks of none of them there, and
asks only that no Ack is requested, that an escape is pending inside a frame only, and that a stopped receiver holds no STOP. -/
theorem State.Inv.outsideBody {s : State} (h : s.Inv) (ha : s.ackReq = false) {r : RxState}
    (hr : r ∉ [RxState.body, .cksum, .ackWait, .deliver]) {e q : Bool} (he : e = true → r.isAccum = true)
    (hq : q = true → r ≠ .stopped) (sum ver mod seq type : Byte) :
    State.Inv { s with
      rxState := r, rxEsc := e, stopReq := q, rxSum := sum, rxVer := ver, rxMod := mod, rxSeq := seq, rxType := type } := by
  have hbody : r ≠ .body := by rintro rfl; simp at hr
  have hlate : ¬ (r = .cksum ∨ r = .ackWait ∨ r = .deliver) := by rintro (rfl | rfl | rfl) <;> simp at hr
  exact { h with
    escInFrame := he
    idxBelowLen := fun h' => absurd h' hbody
    bodyStored := fun h' => absurd h' hbody
    frameStored := fun h' => absurd h' hlate
    validated := fun h' => absurd (.inr h') hlate
    hasOpcode := fun h' => absurd (.inr (.inr h')) hlate
    stopWhileRunning := hq
    ackWhileWaiting := fun h' => by simp [ha] at h'
    ackInFlight := fun hk => by simpa [ha] using (h.ackInFlight hk).1 }

/-- Leaving `STOPPED` or `DELIVER` for `HUNT`: no escape is pending and no Ack is requested there. -/
theorem State.Inv.toHunt {s : State} (h : s.Inv) (hr : s.rxState = .stopped ∨ s.rxState = .deliver) {q : Bool} :
    State.Inv { s with rxState := .hunt, stopReq := q } :=
  h.outsideBody (r := .hunt) (h.ackReq_of_ne (by rcases hr with hr | hr <;> simp [hr])) (by decide)
    (fun he => by rcases hr with hr | hr <;> simpa [hr, RxState.isAccum] using h.escInFrame he) (fun _ => nofun) ..

theorem exec_command_inv {c : Config} {w : CommandWord} {i : Instr} {s t : State} (h : s.Inv)
    (hd : decode c (.cw w) = .instr i) (he : exec i s = .next t) : t.Inv := by
  rcases exec_command_cases hd he with
    rfl | ⟨-, -, rfl⟩ | ⟨-, -, hr, rfl⟩ | ⟨opcode, len, -, -, hb, hlen, rfl⟩ | ⟨-, -, hr, rfl⟩ | ⟨-, code, arg, rfl⟩
  · exact h
  · by_cases hr : s.rxState = .stopped
    · rw [if_pos hr]; exact h.toHunt (.inl hr)
    · rw [if_neg hr]; exact { h with stopWhileRunning := nofun }
  · exact { h with stopWhileRunning := fun _ => hr }
  · have hk : s.txKind ≠ .msg := fun hk => by simp [txMsgBusy_iff.2 (.inr hk)] at hb
    exact { h with slot := fun _ => ⟨hlen, hk⟩ }
  · exact h.toHunt (.inr hr)
  · exact h.withSurroundings ..

/-! ## The receiver -/

/-- A frame abort leaves for `HUNT` with no escape pending, whatever the cause (R178). -/
theorem frameAbort_inv {s : State} (h : s.Inv) (ha : s.ackReq = false) (k : EventCode) (x : Byte) : (frameAbort k x s).Inv :=
  (h.outsideBody (r := .hunt) (e := false) ha (by decide) nofun (fun _ => nofun) ..).withSurroundings ..

/-- Inside a frame the sum and the escape flag are free. -/
theorem State.Inv.inFrame {s : State} (h : s.Inv) (hr : s.rxState.isAccum = true) (e : Bool) (sum : Byte) :
    State.Inv { s with rxEsc := e, rxSum := sum } :=
  { h with
    escInFrame := fun _ => hr
    validated := fun h' => by rcases h' with h' | h' <;> rw [h'] at hr <;> cases hr }

/-- Up to the length byte the header registers, the sum and the escape flag are free. -/
theorem State.Inv.inHeader {s : State} (h : s.Inv) (ha : s.ackReq = false) {r : RxState}
    (hr : r ∈ [RxState.ver, .mod, .seq, .type, .len]) (e : Bool) (sum ver mod seq type : Byte) :
    State.Inv { s with
      rxState := r, rxEsc := e, rxSum := sum, rxVer := ver, rxMod := mod, rxSeq := seq, rxType := type } :=
  h.outsideBody ha (by revert r; decide) (fun _ => by revert r; decide) (fun _ => by revert r; decide) ..

/-- The length byte opens a body of that length with nothing stored yet, or, if 0, leads to the checksum (R134). -/
theorem State.Inv.lengthByte {s : State} (h : s.Inv) (ha : s.ackReq = false) (b : Byte) :
    State.Inv { s with rxLen := b, rxIdx := 0, rxState := if b = 0 then .cksum else .body } := by
  by_cases hb : b = 0
  · subst hb
    exact { h with
      escInFrame := fun _ => rfl, idxBelowLen := nofun, bodyStored := nofun, frameStored := fun _ _ => nofun
      validated := nofun, hasOpcode := nofun, stopWhileRunning := fun _ => nofun
      ackWhileWaiting := fun h' => by simp [ha] at h' }
  · rw [if_neg hb]
    exact { h with
      escInFrame := fun _ => rfl, idxBelowLen := fun _ => by show 0 < b.toNat; bv_omega, bodyStored := fun _ _ => nofun
      frameStored := nofun, validated := nofun, hasOpcode := nofun, stopWhileRunning := fun _ => nofun
      ackWhileWaiting := fun h' => by simp [ha] at h' }

/-- In `BODY` the next index is the number of bytes stored after the write, with no carry out of 8 bits. -/
theorem State.Inv.rxIdx_succ {s : State} (h : s.Inv) (hr : s.rxState = .body) :
    (s.rxIdx + 1).toNat = s.rxIdx.toNat + 1 := by
  have := h.idxBelowLen hr
  bv_omega

/-- A body byte at `rx_idx` extends the stored bytes by one (R135). -/
theorem State.Inv.stored_write {s : State} (h : s.Inv) (hr : s.rxState = .body) (b : Byte) :
    ∀ i < s.rxIdx.toNat + 1, (Memory.read (Memory.write s.rxbuf s.rxIdx.toNat b) i).isSome = true := by
  intro i hi
  rw [Memory.read_write]
  split
  · rfl
  · exact h.bodyStored hr i (by omega)

/-- A body byte that is not the last (R135). -/
theorem State.Inv.bodyByte {s : State} (h : s.Inv) (hr : s.rxState = .body) (hi : s.rxIdx.toNat < s.cfg.rxbufSize)
    (hl : s.rxIdx + 1 ≠ s.rxLen) (b : Byte) :
    State.Inv { s with rxbuf := Memory.write s.rxbuf s.rxIdx.toNat b, rxIdx := s.rxIdx + 1 } := by
  have hlt := h.idxBelowLen hr
  exact { h with
    rxbufWf := Memory.write_wf b hi h.rxbufWf
    idxBelowLen := fun _ => by show (s.rxIdx + 1).toNat < s.rxLen.toNat; bv_omega
    bodyStored := fun _ => by show ∀ i < (s.rxIdx + 1).toNat, _; rw [h.rxIdx_succ hr]; exact h.stored_write hr b
    frameStored := by simp [hr] }

/-- The last body byte completes the stored frame (R135). -/
theorem State.Inv.lastBodyByte {s : State} (h : s.Inv) (hr : s.rxState = .body) (hi : s.rxIdx.toNat < s.cfg.rxbufSize)
    (hl : s.rxIdx + 1 = s.rxLen) (b : Byte) :
    State.Inv { s with rxbuf := Memory.write s.rxbuf s.rxIdx.toNat b, rxState := .cksum } :=
  { h with
    rxbufWf := Memory.write_wf b hi h.rxbufWf
    escInFrame := fun _ => rfl, idxBelowLen := nofun, bodyStored := nofun
    frameStored := fun _ => by show ∀ i < s.rxLen.toNat, _; rw [← hl, h.rxIdx_succ hr]; exact h.stored_write hr b
    validated := nofun, hasOpcode := nofun, stopWhileRunning := fun _ => nofun
    ackWhileWaiting := fun ha => by simpa [hr] using h.ackWhileWaiting ha }

/-- A validated Message requests its Ack (R137). -/
theorem State.Inv.requestAck {s : State} (h : s.Inv) (hr : s.rxState = .cksum) (he : s.rxEsc = false) (h0 : s.rxSum = 0)
    (ht : s.rxType = s.cfg.typeMsg) : State.Inv { s with rxState := .ackWait, ackReq := true } :=
  { h with
    escInFrame := fun h' => by simp [he] at h'
    idxBelowLen := nofun, bodyStored := nofun
    frameStored := fun _ => h.frameStored (.inl hr)
    validated := fun _ => ⟨ht, h0⟩
    hasOpcode := nofun, stopWhileRunning := fun _ => nofun, ackWhileWaiting := fun _ => rfl
    ackInFlight := fun hk => ⟨rfl, (h.ackInFlight hk).2⟩ }

/-- The rule of a field keeps the invariant, the escape flag having been cleared (R128, R130 to R139). -/
theorem rxField_inv {b : Byte} {s t : State} (h : s.Inv) (hs : s.rxState.isAccum = true) (hf : s.fatal = false)
    (hq : s.stopReq = false) (he : s.rxEsc = false) (hx : rxField b s = .next t) : t.Inv := by
  have ha := h.ackReq_of_isAccum hs
  rcases rxField_cases hs hf hq hx with
    ⟨hr, rfl⟩ | ⟨hr, rfl⟩ | ⟨hr, rfl⟩ | ⟨hr, rfl⟩ | ⟨hr, rfl⟩ | ⟨hr, hi, hl, rfl⟩ | ⟨hr, hi, hl, rfl⟩ | ⟨hr, -, rfl⟩ |
    ⟨hr, h0, ht, rfl⟩ | ⟨hr, -, -, rfl⟩ | ⟨hr, -, -, -, rfl⟩
  · exact h.inHeader ha (by simp) ..
  · exact h.inHeader ha (by simp) ..
  · exact h.inHeader ha (by simp) ..
  · exact h.inHeader ha (by simp) ..
  · exact h.lengthByte ha b
  · exact h.lastBodyByte hr hi hl b
  · exact h.bodyByte hr hi hl b
  · exact frameAbort_inv h ha ..
  · exact h.requestAck hr he h0 ht
  · exact (h.outsideBody (r := .hunt) (e := s.rxEsc) ha (by decide) (by simp [he]) (fun _ => nofun) ..).withSurroundings ..
  · exact frameAbort_inv h ha ..

theorem badEscape_inv {s : State} (h : s.Inv) (ha : s.ackReq = false) (w : Byte) : (badEscape w s).Inv := by
  unfold badEscape
  split
  · exact raiseFatal_inv (h.withSurroundings ..) (.inr rfl)
  · exact frameAbort_inv h ha ..

/-- A taken wire byte keeps the invariant (R127 to R129). -/
theorem exec_wireByte_inv {s t : State} {ctx : RxContext} {w : Byte} (h : s.Inv) (ht : s.rxTakes ctx = true)
    (hx : exec (decodeRxByte s.cfg ctx w) s = .next t) : t.Inv := by
  obtain ⟨hf, hq, -⟩ := rxTakes_iff.1 ht
  rcases exec_wireByte_cases w ht with
    ⟨hr, -, he⟩ | ⟨-, -, he⟩ | ⟨hr, -, -, he⟩ | ⟨hr, -, -, he⟩ | ⟨b, hr, -, he⟩ <;> rw [he] at hx
  · cases hx; exact h.inHeader (h.ackReq_of_ne (by simp [hr])) (by simp) ..
  · cases hx; exact h
  · cases hx; exact h.inFrame hr ..
  · cases hx; exact badEscape_inv (h.inFrame hr false s.rxSum) (h.ackReq_of_isAccum hr) w
  · exact rxField_inv (h.inFrame hr false (s.rxSum + b)) hr hf hq rfl hx

theorem rxStop_inv {s : State} (h : s.Inv) (hr : s.rxState.isByteState = true) : (rxStop s).Inv := by
  have ha := h.ackReq_of_ne fun h' => by rw [h'] at hr; cases hr
  unfold rxStop
  split <;> exact (h.outsideBody (r := .stopped) (e := false) (q := false) ha (by decide) nofun nofun ..).withSurroundings ..

theorem rxTimeout_inv {s : State} (h : s.Inv) : (rxTimeout s).Inv := by
  unfold rxTimeout
  split
  · exact frameAbort_inv h (h.ackReq_of_isAccum ‹_›) ..
  · exact h

/-- Leaving `ACK_WAIT`, the stored and validated frame is what is delivered (R140, R141). -/
theorem rxAckDone_inv {s : State} (h : s.Inv) (hr : s.rxState = .ackWait) (ha : s.ackReq = false) : (rxAckDone s).Inv := by
  unfold rxAckDone
  split
  · have hd : State.Inv { s with rxState := .deliver } := { h with
      escInFrame := fun he => by simpa [hr, RxState.isAccum] using h.escInFrame he
      idxBelowLen := nofun, bodyStored := nofun
      frameStored := fun _ => h.frameStored (.inr (.inl hr))
      validated := fun _ => h.validated (.inl hr)
      hasOpcode := fun _ => ‹_›
      stopWhileRunning := fun _ => nofun
      ackWhileWaiting := fun h' => by simp [ha] at h' }
    exact hd.withSurroundings ..
  · exact frameAbort_inv h ha ..

/-! ## The TX engine -/

theorem txStep_inv {ready : Bool} {s t : State} (h : s.Inv) (hf : s.fatal = false) (hx : txStep ready s = .next t) : t.Inv := by
  rcases txStep_cases hf hx with
    ⟨-, ha, rfl⟩ | ⟨-, -, -, payload, -, rfl⟩ | ⟨-, -, -, rfl⟩ | ⟨-, hrem, rfl⟩ | ⟨-, hrem, rfl⟩ | ⟨hk, b, rest, -, rfl⟩
  · exact { h with
      ackInFlight := fun _ => ⟨ha, rfl⟩
      slot := fun hp => ⟨(h.slot hp).1, nofun⟩
      idleEmpty := nofun }
  · exact { h with ackInFlight := nofun, slot := nofun, idleEmpty := nofun }
  · exact h
  · have hc : State.Inv { s with ackReq := false, txKind := .none } := { h with
      ackWhileWaiting := nofun, ackInFlight := nofun
      slot := fun hp => ⟨(h.slot hp).1, nofun⟩
      idleEmpty := fun _ => hrem }
    exact hc.withSurroundings ..
  · have hc : State.Inv { s with txKind := .none } := { h with
      ackInFlight := nofun
      slot := fun hp => ⟨(h.slot hp).1, nofun⟩
      idleEmpty := fun _ => hrem }
    exact hc.withSurroundings ..
  · have hc : State.Inv { s with txRem := rest } := { h with idleEmpty := fun h' => absurd h' hk }
    unfold txEmit
    split
    · exact hc.withSurroundings ..
    · exact h

/-! ## A whole step -/

theorem step_inv {s t : State} (h : s.Inv) (hx : step s = .next t) : t.Inv := by
  rcases step_cases hx with ⟨-, rfl⟩ | ⟨a, turns, -, u, hu, hx⟩
  · exact h.withSurroundings ..
  have hu' : u.Inv := hu ▸ h.withSurroundings ..
  rcases hx with rfl | ⟨-, rfl⟩ | ⟨-, -, rfl⟩ | ⟨w, rest, i, -, -, hd, -, hx⟩ | ⟨w, rest, -, -, hx⟩ | ⟨addr, rest, -, -, rfl⟩ |
    ⟨-, -, -, hr, -, rfl⟩ | ⟨ctx, w, rest, -, ht, -, hx⟩ | ⟨rest, -, -, -, -, -, rfl⟩ | ⟨-, -, -, hr, ha, rfl⟩ |
    ⟨ready, -, hf, hx⟩
  · exact hu'
  · exact applyReset_inv u
  · exact linkError_inv hu'
  · exact exec_command_inv (hu'.withSurroundings ..) hd hx
  · exact exec_txbWrite_inv (hu'.withSurroundings ..) hx
  · exact hu'.withSurroundings ..
  · exact rxStop_inv hu' (hu ▸ hr)
  · subst hu; exact exec_wireByte_inv (s := { beginStep s with sched := turns, linkq := rest }) (hu'.withSurroundings ..) ht hx
  · exact rxTimeout_inv (hu'.withSurroundings ..)
  · subst hu; exact rxAckDone_inv hu' hr ha
  · subst hu; exact txStep_inv hu' hf hx

/-! ## No body byte outside RXBUF -/

/-- No command stops the machine once it is decoded. -/
theorem exec_command_next {c : Config} {w : CommandWord} {i : Instr} (hd : decode c (.cw w) = .instr i) (s : State) :
    ∃ t, exec i s = .next t := by
  rcases decode_cw_cases hd with rfl | rfl | rfl | ⟨o, l, rfl, -⟩ | ⟨l, rfl, -⟩ | rfl | rfl | rfl | rfl
  all_goals
    simp only [exec, execNop, execStart, execStop, execSend, execSendOversize, execRxRelease, execRsvd5, execRsvd6, execRsvd7,
      reservedCommand]
    repeat' split
    all_goals exact ⟨_, rfl⟩

theorem exec_txbWrite_next (addr data : Byte) (s : State) : ∃ t, exec (.txbWrite addr data) s = .next t := by
  simp only [exec, execTxbWrite]
  split <;> [skip; split] <;> exact ⟨_, rfl⟩

/-- The TX engine's only fault is the unwritten payload byte (R118). -/
theorem txStep_ne_rxbufIndex (ready : Bool) (s : State) : txStep ready s ≠ .fault .rxbufIndex := by
  unfold txStep txLoad loadMessage
  repeat' split
  all_goals nofun

/-- A taken wire byte stops the machine only as a body byte outside RXBUF (R135). -/
theorem exec_wireByte_fault {s : State} {ctx : RxContext} {w : Byte} {r : Fault} (ht : s.rxTakes ctx = true)
    (hx : exec (decodeRxByte s.cfg ctx w) s = .fault r) : s.rxState = .body ∧ s.cfg.rxbufSize ≤ s.rxIdx.toNat := by
  rcases exec_wireByte_cases w ht with ⟨-, -, he⟩ | ⟨-, -, he⟩ | ⟨-, -, -, he⟩ | ⟨-, -, -, he⟩ | ⟨b, -, -, he⟩ <;>
    rw [he] at hx
  case inr.inr.inr.inr =>
    rcases rxField_stops (b := b) (s := { s with rxEsc := false, rxSum := s.rxSum + b }) with ⟨t, hn⟩ | ⟨hr, hi, -⟩
    · cases hn.symm.trans hx
    · exact ⟨hr, Nat.not_lt.1 hi⟩
  all_goals cases hx

/-- A step is the fault `rxbufIndex` only in `BODY` at an index outside RXBUF. -/
theorem step_rxbufIndex {s : State} (h : step s = .fault .rxbufIndex) :
    s.rxState = .body ∧ s.cfg.rxbufSize ≤ s.rxIdx.toNat := by
  cases hs : s.sched with
  | nil => rw [step_nil hs] at h; cases h
  | cons a turns =>
    rw [step_cons hs] at h
    cases a with
    | reset => cases h
    | linkErr => cases h
    | tx ready => exact absurd h (txStep_ne_rxbufIndex ready _)
    | host =>
      simp only [turn] at h
      rcases hostTurn_cases { beginStep s with sched := turns } with
        ⟨-, he⟩ | ⟨w, rest, -, -, he⟩ | ⟨w, rest, i, -, hd, -, he⟩ | ⟨w, rest, i, -, -, -, he⟩ | ⟨w, rest, -, he⟩ |
        ⟨addr, rest, -, he⟩ <;> rw [he] at h
      case inr.inr.inl =>
        obtain ⟨t, ht⟩ := exec_command_next hd { beginStep s with sched := turns, hostq := rest }
        cases ht.symm.trans h
      case inr.inr.inr.inr.inl =>
        obtain ⟨t, ht⟩ :=
          exec_txbWrite_next (txbWordAddr w) (txbWordData w) { beginStep s with sched := turns, hostq := rest }
        cases ht.symm.trans h
      all_goals cases h
    | rx offered =>
      simp only [turn] at h
      cases hf : s.fatal with
      | true => rw [show rxTurn offered { beginStep s with sched := turns } = .done (.next _) from if_pos hf] at h; cases h
      | false =>
        rcases rxTurn_cases (s := { beginStep s with sched := turns }) hf offered with
          ⟨-, -, he⟩ | ⟨ctx, w, rest, ht, -, -, he⟩ | ⟨rest, -, -, -, -, he⟩ | ⟨-, -, he⟩ | ⟨-, -, -, he⟩ <;> rw [he] at h
        case inr.inl => exact exec_wireByte_fault (s := { beginStep s with sched := turns, linkq := rest }) ht h
        all_goals cases h

/-- Settles O44: each operation keeps the invariant, and in `BODY` the invariant keeps `rx_idx` below `rx_len`, so below 255. -/
theorem everyStepKeepsInvariant : Obligations.EveryStepKeepsInvariant := by
  refine fun s h => ⟨fun t hx => step_inv h hx, fun hmax hx => ?_⟩
  obtain ⟨hr, hi⟩ := step_rxbufIndex hx
  have hlt := h.idxBelowLen hr
  have hlen := s.rxLen.isLt
  unfold Config.rxbufSize at hi
  omega

end Sys2Proof.Machine

/-! PROOFS. What a step does to the transmitter: the sequence counter (R28, R108) and the length of `tx_rem` (R30, R85). -/

namespace Sys2Proof.Machine

/-! ## Which steps touch the transmitter -/

theorem sameTransmitter_refl (s : State) : sameTransmitter s s := ⟨rfl, rfl, rfl, rfl, rfl, rfl, rfl, rfl⟩

theorem sameTransmitter.txRem {s t : State} (h : sameTransmitter s t) : t.txRem = s.txRem := by
  obtain ⟨-, -, -, -, -, -, -, hrem⟩ := h
  exact hrem

theorem decodeRxByte_mem (c : Config) (ctx : RxContext) (w : Byte) :
    decodeRxByte c ctx w ∈
      [Instr.rxHuntSync, .rxHuntDiscard w, .rxEscPrefix, .rxLit w, .rxEscSync, .rxEscEsc, .rxEscBad w] := by
  cases ctx <;> simp only [decodeRxByte]
  case escaped => split <;> [skip; split] <;> simp
  all_goals split <;> simp

/-- A wire byte, once taken, leaves the transmitter and the surroundings. -/
theorem exec_decodeRxByte_frame {s t : State} {c : Config} {ctx : RxContext} {w : Byte}
    (h : exec (decodeRxByte c ctx w) s = .next t) : sameTransmitter s t ∧ sameSurroundings s t := by
  obtain ⟨⟨-, hrest, -⟩, -⟩ := exec_wireByteRow_frame (decodeRxByte_mem c ctx w) h
  obtain ⟨-, htx, -, -, -, hsur⟩ := frame_of_eq_withReceiverOf hrest
  exact ⟨htx, hsur⟩

/-- A command leaves the transmitter, unless it is an accepted SEND (R106). -/
theorem exec_command_transmitter {c : Config} {w : CommandWord} {i : Instr} {s t : State} (hd : decode c (.cw w) = .instr i)
    (h : exec i s = .next t) :
    sameTransmitter s t ∨
    ∃ opcode len, i = .send opcode len ∧ s.fatal = false ∧ s.txMsgBusy = false ∧
      t = { s with msgOpcode := opcode, msgLen := len, msgSeq := s.seqNext, seqNext := s.seqNext + 1, msgPending := true } := by
  rcases exec_command_cases hd h with
    rfl | ⟨-, -, rfl⟩ | ⟨-, -, -, rfl⟩ | ⟨opcode, len, hi, hf, hb, -, rfl⟩ | ⟨-, -, -, rfl⟩ | ⟨-, code, arg, rfl⟩
  case inr.inr.inr.inl => exact .inr ⟨opcode, len, hi, hf, hb, rfl⟩
  all_goals exact .inl (sameTransmitter_refl _)

theorem exec_txbWrite_transmitter {addr data : Byte} {s t : State} (h : exec (.txbWrite addr data) s = .next t) :
    sameTransmitter s t := by
  rcases exec_txbWrite_cases h with ⟨-, rfl⟩ | ⟨-, -, rfl⟩ | ⟨-, -, -, rfl⟩ <;> exact sameTransmitter_refl _

/-- A step leaves the transmitter, unless it is a reset, an accepted SEND or a turn of the TX engine. -/
theorem step_transmitter_cases {s t : State} (h : step s = .next t) :
    sameTransmitter s t ∨
    (∃ turns, s.sched = .reset :: turns ∧ sameTransmitter (State.resetWith s.cfg) t) ∨
    (∃ turns w acts opcode len, s.sched = .host :: turns ∧ s.hostq = .command w :: acts ∧
      decode s.cfg (.cw w) = .instr (.send opcode len) ∧ s.fatal = false ∧ s.txMsgBusy = false ∧
      sameTransmitter { s with
        msgOpcode := opcode, msgLen := len, msgSeq := s.seqNext, seqNext := s.seqNext + 1, msgPending := true } t) ∨
    (∃ ready turns, s.sched = .tx ready :: turns ∧ s.fatal = false ∧
      txStep ready { beginStep s with sched := turns } = .next t) := by
  rcases step_cases h with ⟨-, rfl⟩ | ⟨a, turns, hs, u, rfl, h⟩
  · exact .inl (sameTransmitter_refl s)
  rcases h with rfl | ⟨rfl, rfl⟩ | ⟨-, -, rfl⟩ | ⟨w, rest, i, rfl, hq, hd, -, h⟩ | ⟨w, rest, -, -, h⟩ | ⟨addr, rest, -, -, rfl⟩ |
    ⟨-, -, -, -, -, rfl⟩ | ⟨ctx, w, rest, -, -, -, h⟩ | ⟨rest, -, -, -, -, -, rfl⟩ | ⟨-, -, -, -, -, rfl⟩ |
    ⟨ready, rfl, hf, h⟩
  · exact .inl (sameTransmitter_refl s)
  · exact .inr (.inl ⟨turns, hs, sameTransmitter_refl _⟩)
  · refine .inl ?_
    unfold linkError
    split <;> exact sameTransmitter_refl s
  · rcases exec_command_transmitter (s := { beginStep s with sched := turns, hostq := rest }) hd h with h | ⟨opcode, len, rfl, hf, hb, rfl⟩
    · exact .inl h
    · exact .inr (.inr (.inl ⟨turns, w, rest, opcode, len, hs, hq, hd, hf, hb, sameTransmitter_refl _⟩))
  · exact .inl (exec_txbWrite_transmitter (s := { beginStep s with sched := turns, hostq := rest }) h)
  · exact .inl (sameTransmitter_refl s)
  · refine .inl ?_
    unfold rxStop
    split <;> exact sameTransmitter_refl s
  · exact .inl (exec_decodeRxByte_frame (s := { beginStep s with sched := turns, linkq := rest }) h).1
  · refine .inl ?_
    unfold rxTimeout
    split <;> exact sameTransmitter_refl s
  · refine .inl ?_
    unfold rxAckDone
    split <;> exact sameTransmitter_refl s
  · exact .inr (.inr (.inr ⟨ready, turns, hs, hf, h⟩))

/-! ## The sequence counter -/

/-- The TX engine sends the numbers of the slot and of `rx_seq`, and never writes the counter (R109 to R114). -/
theorem txStep_seqNext {ready : Bool} {s t : State} (hf : s.fatal = false) (h : txStep ready s = .next t) :
    t.seqNext = s.seqNext := by
  rcases txStep_cases hf h with
    ⟨-, -, rfl⟩ | ⟨-, -, -, payload, -, rfl⟩ | ⟨-, -, -, rfl⟩ | ⟨-, -, rfl⟩ | ⟨-, -, rfl⟩ | ⟨-, b, rest, -, rfl⟩
  case inr.inr.inr.inr.inr => unfold txEmit; split <;> rfl
  all_goals rfl

/-- Settles O50: of the three kinds of step that touch the transmitter, reset sets the counter, SEND advances it, and the TX engine
leaves it. -/
theorem counterAdvancesOnlyOnSend : Obligations.CounterAdvancesOnlyOnSend := by
  intro s t h
  rcases step_transmitter_cases h with
    ⟨hseq, -⟩ | ⟨turns, hs, hseq, -⟩ | ⟨turns, w, acts, opcode, len, hs, hq, hd, hf, hb, htx⟩ | ⟨ready, turns, -, hf, h⟩
  · exact .inl hseq
  · exact .inr (.inl ⟨⟨turns, hs⟩, hseq⟩)
  · obtain ⟨hseq, hpend, hop, hlen, hmsg, -⟩ := htx
    exact .inr (.inr ⟨turns, w, acts, opcode, len, hs, hq, hd, hf, hb, hpend, hop, hlen, hmsg, hseq⟩)
  · exact .inl (txStep_seqNext (s := { beginStep s with sched := turns }) hf h)

/-! ## The length of a frame on the wire -/

theorem length_stuff_le (c : Config) (b : Byte) : (stuff c b).length ≤ 2 := by
  rcases stuff_cases c b with ⟨-, h⟩ | ⟨-, -, h⟩ | ⟨-, -, h⟩ <;> simp [h]

theorem length_stuffAll_le (c : Config) (bs : List Byte) : (stuffAll c bs).length ≤ 2 * bs.length := by
  induction bs with
  | nil => simp
  | cons b bs ih =>
    have := length_stuff_le c b
    simp only [stuffAll_cons, List.length_append, List.length_cons]
    omega

theorem length_wire_le (c : Config) (f : List Byte) : (wire c f).length ≤ 2 * f.length := by
  cases f with
  | nil => simp
  | cons b bs =>
    have := length_stuffAll_le c bs
    simp only [wire_cons, List.length_cons]
    omega

/-- The document's wire constants and `MAX_PAYLOAD` (R7, R8), the other parameters free. -/
def Config.documented (maxBody : Nat) (escapeErrorFatal : Bool) (seqInit : Byte) : Config :=
  { Config.default with maxBody := maxBody, escapeErrorFatal := escapeErrorFatal, seqInit := seqInit }

/-- The length byte and the payload together: the longest payload has a length byte, 0xFF, that is not stuffed (R85). -/
theorem length_stuff_len_payload_le (m : Nat) (f : Bool) (i : Byte) {payload : List Byte} (hp : payload.length ≤ 253) :
    (stuff (Config.documented m f i) (BitVec.ofNat 8 (2 + payload.length))).length +
      (stuffAll (Config.documented m f i) payload).length ≤ 507 := by
  have hall := length_stuffAll_le (Config.documented m f i) payload
  by_cases h : payload.length = 253
  · have hlen : (stuff (Config.documented m f i) (BitVec.ofNat 8 (2 + payload.length))).length = 1 := by rw [h]; rfl
    omega
  · have hlen := length_stuff_le (Config.documented m f i) (BitVec.ofNat 8 (2 + payload.length))
    omega

/-- With the document's constants a Message frame takes at most 519 wire bytes: version, module id and type are not stuffed (R85). -/
theorem length_wire_frameMsg_le (m : Nat) (f : Bool) (i seq : Byte) (opcode : Opcode) {payload : List Byte}
    (hp : payload.length ≤ 253) :
    (wire (Config.documented m f i) (frameMsg (Config.documented m f i) seq opcode payload)).length ≤ 519 := by
  generalize hc : Config.documented m f i = c
  have hbody := hc ▸ length_stuff_len_payload_le m f i hp
  have hver : (stuff c c.version).length = 1 := by subst hc; rfl
  have hmod : (stuff c c.moduleId).length = 1 := by subst hc; rfl
  have htype : (stuff c c.typeMsg).length = 1 := by subst hc; rfl
  have hseq := length_stuff_le c seq
  have hhigh := length_stuff_le c (opcodeHigh opcode)
  have hlow := length_stuff_le c (opcodeLow opcode)
  have hcks := length_stuff_le c (cks (messageHead c seq opcode payload))
  rw [frameMsg]
  generalize cks (messageHead c seq opcode payload) = k at hcks
  simp only [messageHead, List.cons_append, List.nil_append, wire_cons, stuffAll_cons, stuffAll_append, stuffAll_nil,
    List.length_cons, List.length_append, List.length_nil]
  omega

/-! ## The length of `tx_rem` -/

/-- A step of the TX engine loads a frame, takes a byte off the frame in flight, or leaves it (R109 to R114). -/
theorem txStep_txRem_le {ready : Bool} {s t : State} {n : Nat} (hf : s.fatal = false)
    (hack : (wire s.cfg (frameAck s.cfg s.rxSeq)).length ≤ n)
    (hmsg : ∀ payload, s.msgPending = true → payload.length = s.msgLen.toNat →
      (wire s.cfg (frameMsg s.cfg s.msgSeq s.msgOpcode payload)).length ≤ n)
    (hrem : s.txRem.length ≤ n) (h : txStep ready s = .next t) : t.txRem.length ≤ n := by
  rcases txStep_cases hf h with
    ⟨-, -, rfl⟩ | ⟨-, -, hp, payload, hpay, rfl⟩ | ⟨-, -, -, rfl⟩ | ⟨-, -, rfl⟩ | ⟨-, -, rfl⟩ | ⟨-, b, rest, hcons, rfl⟩
  · exact hack
  · exact hmsg payload hp (payloadFrom_spec hpay).1
  · exact hrem
  · exact hrem
  · exact hrem
  · unfold txEmit
    split
    · rw [hcons, List.length_cons] at hrem
      exact Nat.le_of_succ_le hrem
    · exact hrem

/-- Settles O45: only LOAD lengthens `tx_rem`, an Ack frame has 7 bytes before stuffing, and the invariant keeps a queued Message
within `MAX_PAYLOAD`. -/
theorem everyStepKeepsTxRemBounded : Obligations.EveryStepKeepsTxRemBounded := by
  intro s t hinv hc hrem h
  rcases step_transmitter_cases h with
    htx | ⟨_, -, htx⟩ | ⟨_, _, _, _, _, -, -, -, -, -, htx⟩ | ⟨ready, turns, -, hf, h⟩
  · rwa [htx.txRem]
  · rw [htx.txRem]; exact Nat.zero_le _
  · rwa [htx.txRem]
  · refine txStep_txRem_le (s := { beginStep s with sched := turns }) hf ?_ (fun payload hp hlen => ?_) hrem h
    · exact Nat.le_trans (length_wire_le _ _) (by decide : 2 * 7 ≤ 519)
    · have hmax : s.cfg.maxPayload = 253 := congrArg Config.maxPayload hc
      have hle : payload.length ≤ 253 := hlen.trans_le (hmax ▸ (hinv.slot hp).1)
      have hw := length_wire_frameMsg_le s.cfg.maxBody s.cfg.escapeErrorFatal s.cfg.seqInit s.msgSeq s.msgOpcode hle
      rwa [← show s.cfg = Config.documented .. from hc] at hw

end Sys2Proof.Machine

/-! PROOFS. The ports: what leaves the link (R36), the command port's readiness (R43, R81), the delivery (R41, R163), and the values
after reset (R44). -/

namespace Sys2Proof.Machine

/-! ## The RX port -/

theorem isByteState_iff {r : RxState} : r.isByteState = true ↔ r = .hunt ∨ r.isAccum = true := by
  simp [RxState.isByteState]

theorem rxReady_iff {s : State} :
    s.rxReady = true ↔ s.fatal = false ∧ (s.rxState = .hunt ∨ s.rxState.isAccum = true) ∧ s.stopReq = false := by
  simp [State.rxReady, isByteState_iff, and_assoc]

/-- The deframer takes a byte in some context only while `rx_ready = 1` (R36, R127, R128). -/
theorem rxReady_of_rxTakes {s : State} {ctx : RxContext} (h : s.rxTakes ctx = true) : s.rxReady = true := by
  obtain ⟨hf, hq, hc⟩ := rxTakes_iff.1 h
  refine rxReady_iff.2 ⟨hf, ?_, hq⟩
  rcases rxContext_eq_some.1 hc with ⟨-, hr⟩ | ⟨-, hr, -⟩ | ⟨-, hr, -⟩ <;> simp [hr]

@[simp] theorem rxStop_linkq (s : State) : (rxStop s).linkq = s.linkq := by unfold rxStop; split <;> rfl

@[simp] theorem rxTimeout_linkq (s : State) : (rxTimeout s).linkq = s.linkq := by unfold rxTimeout; split <;> rfl

@[simp] theorem rxAckDone_linkq (s : State) : (rxAckDone s).linkq = s.linkq := by unfold rxAckDone; split <;> rfl

/-- An RX turn takes the link's head exactly if it is offered and `rx_ready = 1` (R36). -/
theorem rxTurn_linkq {offered : Bool} {s t : State} (h : runAction (rxTurn offered s) = .next t) :
    t.linkq = if offered = true ∧ s.rxReady = true then s.linkq.tail else s.linkq := by
  cases hf : s.fatal with
  | true =>
    rw [show rxTurn offered s = .done (.next s) from if_pos hf] at h
    cases h
    simp [State.rxReady, hf]
  | false =>
    rcases rxTurn_cases hf offered with
      ⟨hr, hq, he⟩ | ⟨ctx, w, rest, ht, ho, hl, he⟩ | ⟨rest, hr, hq, ho, hl, he⟩ | ⟨hr, ha, he⟩ | ⟨hnone, -, -, he⟩ <;>
      rw [he] at h
    · cases h
      simp [State.rxReady, hq]
    · obtain ⟨-, -, hlink, -⟩ := exec_decodeRxByte_frame h
      rw [hlink, if_pos ⟨ho, rxReady_of_rxTakes ht⟩, hl, List.tail_cons]
    · cases h
      rw [rxTimeout_linkq, if_pos ⟨ho, rxReady_iff.2 ⟨hf, isByteState_iff.1 hr, hq⟩⟩, hl, List.tail_cons]
    · cases h
      simp [State.rxReady, hr, RxState.isByteState, RxState.isAccum]
    · cases h
      split
      · rename_i hc
        rcases hnone hc.2 with ho | hl
        · exact absurd hc.1 (by simp [ho])
        · rw [hl, List.tail_nil]
      · rfl

/-- With nothing offered, a receiver that waits for bytes and has no STOP to take does nothing (R13, R125). -/
theorem rxTurn_not_offered {s : State} (hr : s.rxState.isByteState = true) (hq : s.stopReq = false) :
    rxTurn false s = .done (.next s) := by
  cases hf : s.fatal with
  | true => exact if_pos hf
  | false =>
    rcases rxTurn_cases hf false with
      ⟨-, hq', -⟩ | ⟨_, _, _, -, ho, -⟩ | ⟨_, -, -, ho, -⟩ | ⟨hw, -⟩ | ⟨-, -, -, he⟩
    · simp [hq] at hq'
    · cases ho
    · cases ho
    · rw [hw] at hr; cases hr
    · exact he

/-- Settles O24: the guard by its definition, and both kinds of turn from what an RX turn takes off the link. -/
theorem rxPortTakesExactlyWhenReady : Obligations.RxPortTakesExactlyWhenReady := by
  refine ⟨fun s => rxReady_iff, fun s t item items turns hs hl h => ?_, fun s turns hs => ⟨fun t h => ?_, fun hr hq => ?_⟩⟩
  · rw [step_cons hs] at h
    have ht : t.linkq = if true = true ∧ s.rxReady = true then s.linkq.tail else s.linkq :=
      rxTurn_linkq (s := { beginStep s with sched := turns }) h
    simpa only [true_and, hl, List.tail_cons] using ht
  · rw [step_cons hs] at h
    exact rxTurn_linkq (s := { beginStep s with sched := turns }) h
  · rw [step_cons hs]
    exact congrArg runAction (rxTurn_not_offered (s := { beginStep s with sched := turns }) (isByteState_iff.2 hr) hq)

/-! ## The command port -/

theorem hcReady_eq_false_iff {s : State} {code : BitVec 3} :
    s.hcReady code = false ↔ s.fatal = false ∧ code = 3#3 ∧ s.txMsgBusy = true := by
  simp [State.hcReady, and_assoc]

/-- A host's turn with a command that decodes and is not ready leaves it at the head of the host's actions (R43). -/
theorem hostTurn_of_not_ready {s : State} {w : CommandWord} {rest : List HostAction} {i : Instr}
    (hq : s.hostq = .command w :: rest) (hd : decode s.cfg (.cw w) = .instr i) (hr : s.hcReady (commandCode w) = false) :
    hostTurn s = .done (.next s) := by
  simp only [hostTurn, hq, fetchCommand, hd, hr, Bool.false_eq_true, if_false]

theorem hostTurn_of_reserved {s : State} {w : CommandWord} {rest : List HostAction} (hq : s.hostq = .command w :: rest)
    (hr : commandReserved w ≠ 0#5) : hostTurn s = .done (.refused (.notACommand w)) := by
  simp only [hostTurn, hq, fetchCommand, decode_cw_reject _ hr]

theorem decode_cw_send (c : Config) {w : CommandWord} (hr : commandReserved w = 0#5) (hc : commandCode w = 3#3) :
    decode c (.cw w) = .instr (decodeSend c (commandOpcode w) (commandLen w)) := by
  simp only [decode, decodeCommand]
  rw [if_pos hr, hc]
  rfl

/-- Settles O20: the guards by their definitions, and the three outcomes of a presented word from the host's turn. -/
theorem commandPortHoldsSendAndRefusesNonCommands : Obligations.CommandPortHoldsSendAndRefusesNonCommands := by
  refine ⟨fun s code => ⟨txMsgBusy_iff, hcReady_eq_false_iff⟩, fun s w acts turns hs hq => ⟨fun i hd hor => ?_,
    fun hres hcode hf hb => ?_, fun hres => ?_⟩⟩
  · have hr : s.hcReady (commandCode w) = true := by
      rw [← Bool.not_eq_false, hcReady_eq_false_iff]
      rintro ⟨hf, hc, hb⟩
      simp [hf, hc, hb] at hor
    exact stepRunsDecodedInstruction.1 s w i acts turns hs hq hd hr
  · refine ⟨_, ?_, rfl, hq⟩
    rw [step_cons hs]
    exact congrArg runAction (hostTurn_of_not_ready (s := { beginStep s with sched := turns }) hq (decode_cw_send s.cfg hres hcode)
      (hcReady_eq_false_iff.2 ⟨hf, hcode, hb⟩))
  · rw [step_cons hs]
    exact congrArg runAction (hostTurn_of_reserved (s := { beginStep s with sched := turns }) hq hres)

/-! ## The delivery -/

theorem rxFrameValid_iff {s : State} : s.rxFrameValid = true ↔ s.fatal = false ∧ s.rxState = .deliver := by
  simp [State.rxFrameValid]

theorem rxFrameValid_eq_false_iff {s : State} : s.rxFrameValid = false ↔ s.fatal = true ∨ s.rxState ≠ .deliver := by
  rw [← Bool.not_eq_true, rxFrameValid_iff, not_and_or, Bool.not_eq_false]

/-- A stored byte is what a delivery shows of RXBUF at its index. -/
theorem read_eq_some_rxbufByte {s : State} {a : Byte} (h : (Memory.read s.rxbuf a.toNat).isSome = true) :
    Memory.read s.rxbuf a.toNat = some (s.rxbufByte a) := by
  obtain ⟨v, hv⟩ := Option.isSome_iff_exists.1 h
  simp [State.rxbufByte, hv]

/-- Outside a delivery each delivery output is the free value of the step (I4). -/
theorem free_outputs_of_not_valid {s : State} (h : s.rxFrameValid = false) :
    s.rxOpcode = Config.freeRxOpcode s.ticks ∧ s.rxPlen = Config.freeRxPlen s.ticks ∧
    s.rxHdrSeq = Config.freeRxHdrSeq s.ticks ∧ s.rxHdrVer = Config.freeRxHdrVer s.ticks ∧
    s.rxHdrMod = Config.freeRxHdrMod s.ticks ∧ ∀ a, s.rxbRdata a = Config.freeRxbRdata s.ticks a := by
  simp [State.rxOpcode, State.rxPlen, State.rxHdrSeq, State.rxHdrVer, State.rxHdrMod, State.rxbRdata, h]

/-- In a delivery the outputs are the registers and the first two body bytes (R41). -/
theorem outputs_of_valid {s : State} (h : s.rxFrameValid = true) :
    s.rxOpcode = s.rxbufByte 0 ++ s.rxbufByte 1 ∧ s.rxPlen = s.rxLen - 2 ∧ s.rxHdrSeq = s.rxSeq ∧ s.rxHdrVer = s.rxVer ∧
    s.rxHdrMod = s.rxMod := by
  simp [State.rxOpcode, State.rxPlen, State.rxHdrSeq, State.rxHdrVer, State.rxHdrMod, h]

/-- In a delivery the host reads the body below `rx_len` (R163). -/
theorem rxbRdata_of_lt {s : State} (h : s.rxFrameValid = true) {a : Byte} (ha : a.toNat < s.rxLen.toNat) :
    s.rxbRdata a = s.rxbufByte a := by
  simp [State.rxbRdata, h, ha]

theorem rxbRdata_of_le {s : State} {a : Byte} (ha : s.rxLen.toNat ≤ a.toNat) :
    s.rxbRdata a = Config.freeRxbRdata s.ticks a := by
  simp [State.rxbRdata, Nat.not_lt.2 ha]

/-- Settles O32: the read is the host's turn itself; that the bytes it shows are stored, and that the opcode is among them, is the
invariant's. -/
theorem deliveryShowsTheFrame : Obligations.DeliveryShowsTheFrame := by
  intro s addr acts turns hinv hs hq
  refine ⟨({ beginStep s with sched := turns, hostq := acts } : State).rxbRdata addr, ?_, fun hf hr => ?_, fun hne => ?_⟩
  · rw [step_cons hs]
    simp only [turn, hostTurn, beginStep_hostq, hq]
    rfl
  · have hv := rxFrameValid_iff.2 ⟨hf, hr⟩
    have hstored := hinv.frameStored (.inr (.inr hr))
    have hlen := hinv.hasOpcode hr
    obtain ⟨hop, hplen, hseq, hver, hmod⟩ := outputs_of_valid hv
    have h0 : Memory.read s.rxbuf 0 = some (s.rxbufByte 0) := read_eq_some_rxbufByte (a := 0) (hstored 0 (by omega))
    have h1 : Memory.read s.rxbuf 1 = some (s.rxbufByte 1) := read_eq_some_rxbufByte (a := 1) (hstored 1 (by omega))
    refine ⟨hv, by rw [hop, h0, h1]; rfl, hplen, hseq, hver, hmod, fun hlt => ?_, fun hge => ?_⟩
    · rw [rxbRdata_of_lt (s := { beginStep s with sched := turns, hostq := acts }) hv hlt]
      exact read_eq_some_rxbufByte (s := { beginStep s with sched := turns, hostq := acts }) (hstored addr.toNat hlt)
    · exact rxbRdata_of_le (s := { beginStep s with sched := turns, hostq := acts }) hge
  · have hv := rxFrameValid_eq_false_iff.2 hne
    obtain ⟨hop, hplen, hseq, hver, hmod, -⟩ := free_outputs_of_not_valid hv
    obtain ⟨-, -, -, -, -, hread⟩ := free_outputs_of_not_valid (s := { beginStep s with sched := turns, hostq := acts }) hv
    exact ⟨hv, hop, hplen, hseq, hver, hmod, hread addr⟩

/-! ## Reset -/

/-- Settles O31: each register and each derived output is read off the reset state. -/
theorem resetStateValues : Obligations.ResetStateValues := by
  refine ⟨rfl, rfl, rfl, rfl, rfl, rfl, rfl, rfl, rfl, rfl, rfl, rfl, rfl, rfl, rfl, rfl, rfl, rfl, rfl, rfl, rfl, fun _ => rfl, ?_⟩
  decide

end Sys2Proof.Machine

/-! PROOFS. The buffers and the link over a whole step: which agent writes what, so that a frame in flight, TXBUF, a delivery and
the Ack's order stay as R57 to R61 say. -/

namespace Sys2Proof.Machine

/-! ## What a command, a TXBUF write and a TX step may write -/

/-- `s` with what a command may write of `u`: `rx_state`, the STOP request, the message slot, the counter and the control event. -/
def State.withCommandOf (s u : State) : State :=
  { s with
    rxState := u.rxState, stopReq := u.stopReq, seqNext := u.seqNext, msgPending := u.msgPending, msgOpcode := u.msgOpcode
    msgLen := u.msgLen, msgSeq := u.msgSeq, ctlEv := u.ctlEv, ctlEvents := u.ctlEvents }

/-- A command leaves both buffers, the header registers and the frame in flight; only START in `STOPPED` and RX_RELEASE change
`rx_state` (R156, R158). -/
theorem exec_command_writes {c : Config} {w : CommandWord} {i : Instr} {s t : State} (hd : decode c (.cw w) = .instr i)
    (h : exec i s = .next t) :
    ∃ u, t = s.withCommandOf u ∧
      (u.rxState = s.rxState ∨ (s.rxState = .stopped ∧ u.rxState = .hunt) ∨ (i = .rxRelease ∧ u.rxState = .hunt)) := by
  refine ⟨t, ?_⟩
  rcases exec_command_cases hd h with
    rfl | ⟨-, -, rfl⟩ | ⟨-, -, -, rfl⟩ | ⟨opcode, len, -, -, -, -, rfl⟩ | ⟨hi, -, -, rfl⟩ | ⟨-, code, arg, rfl⟩
  case inr.inl =>
    refine ⟨rfl, ?_⟩
    by_cases hr : s.rxState = .stopped
    · exact .inr (.inl ⟨hr, if_pos hr⟩)
    · exact .inl (if_neg hr)
  case inr.inr.inr.inr.inl => exact ⟨rfl, .inr (.inr ⟨hi, rfl⟩)⟩
  all_goals exact ⟨rfl, .inl rfl⟩

/-- A TXBUF write leaves all but TXBUF and the control event, and TXBUF too while a Message is queued or in flight (R161, R162). -/
theorem exec_txbWrite_writes {addr data : Byte} {s t : State} (h : exec (.txbWrite addr data) s = .next t) :
    ∃ m ev evs, t = { s with txbuf := m, ctlEv := ev, ctlEvents := evs } ∧ (s.txMsgBusy = true → m = s.txbuf) := by
  rcases exec_txbWrite_cases h with ⟨-, rfl⟩ | ⟨-, -, rfl⟩ | ⟨-, hfree, -, rfl⟩
  · exact ⟨_, _, _, rfl, fun _ => rfl⟩
  · exact ⟨_, _, _, rfl, fun _ => rfl⟩
  · exact ⟨_, _, _, rfl, fun hbusy => by cases hbusy.symm.trans hfree⟩

/-- `s` with what a TX step may write of `u`: the TX engine, the message slot's flag, the Ack request, the TX event and the bytes
handed to the link. -/
def State.withTxEngineOf (s u : State) : State :=
  { s with
    txKind := u.txKind, txSeq := u.txSeq, txRem := u.txRem, msgPending := u.msgPending, ackReq := u.ackReq
    txEv := u.txEv, txEvents := u.txEvents, linkOut := u.linkOut }

/-- A TX step leaves the receiver and both buffers, and drops the Ack request only when the Ack's bytes are all out (R113). -/
theorem txStep_writes {ready : Bool} {s t : State} (hf : s.fatal = false) (h : txStep ready s = .next t) :
    ∃ u, t = s.withTxEngineOf u ∧ (s.ackReq = true → u.ackReq = false → s.txKind = .ack ∧ s.txRem = []) := by
  refine ⟨t, ?_⟩
  rcases txStep_cases hf h with
    ⟨-, -, rfl⟩ | ⟨-, -, -, payload, -, rfl⟩ | ⟨-, -, -, rfl⟩ | ⟨hk, hrem, rfl⟩ | ⟨-, -, rfl⟩ | ⟨-, b, rest, -, rfl⟩
  case inr.inr.inr.inl => exact ⟨rfl, fun _ _ => ⟨hk, hrem⟩⟩
  case inr.inr.inr.inr.inr => unfold txEmit; split <;> exact ⟨rfl, fun ha hn => by cases ha.symm.trans hn⟩
  all_goals exact ⟨rfl, fun ha hn => by cases ha.symm.trans hn⟩

/-- With nothing left over from an idle engine, a TX step keeps a frame not yet handed over, or hands over its next byte (R112). -/
theorem txStep_handsOverHead {ready : Bool} {s t : State} (hf : s.fatal = false) (hidle : s.txKind = .none → s.txRem = [])
    (h : txStep ready s = .next t) :
    (t.linkOut = s.linkOut ∧ (s.txRem ≠ [] → t.txRem = s.txRem ∧ t.txKind = s.txKind ∧ t.txSeq = s.txSeq)) ∨
    (∃ b, s.txRem = b :: t.txRem ∧ t.linkOut = s.linkOut ++ [b] ∧ t.txKind = s.txKind ∧ t.txSeq = s.txSeq) := by
  rcases txStep_cases hf h with
    ⟨hk, -, rfl⟩ | ⟨hk, -, -, payload, -, rfl⟩ | ⟨-, -, -, rfl⟩ | ⟨-, hrem, rfl⟩ | ⟨-, hrem, rfl⟩ | ⟨-, b, rest, hcons, rfl⟩
  · exact .inl ⟨rfl, fun hne => absurd (hidle hk) hne⟩
  · exact .inl ⟨rfl, fun hne => absurd (hidle hk) hne⟩
  · exact .inl ⟨rfl, fun _ => ⟨rfl, rfl, rfl⟩⟩
  · exact .inl ⟨rfl, fun hne => absurd hrem hne⟩
  · exact .inl ⟨rfl, fun hne => absurd hrem hne⟩
  · unfold txEmit
    split
    · exact .inr ⟨b, hcons, rfl, rfl, rfl⟩
    · exact .inl ⟨rfl, fun _ => ⟨rfl, rfl, rfl⟩⟩

/-! ## What an RX step may do -/

/-- What every RX step keeps to: it leaves the transmitter, TXBUF and the link's bytes, drops no Ack request, and delivers only from
`ACK_WAIT` with the request fallen (R140, R150). -/
def rxStepFrame (s t : State) : Prop :=
  sameTransmitter s t ∧ sameTxbuf s t ∧ t.linkOut = s.linkOut ∧ (s.ackReq = true → t.ackReq = true) ∧
  (t.rxState = .deliver → s.rxState = .ackWait ∧ s.ackReq = false)

theorem ne_deliver_of_isByteState {r : RxState} (h : r.isByteState = true) : r ≠ .deliver := by rintro rfl; cases h

theorem ne_deliver_of_rxTakes {s : State} {ctx : RxContext} (h : s.rxTakes ctx = true) : s.rxState ≠ .deliver := by
  obtain ⟨-, hr, -⟩ := rxReady_iff.1 (rxReady_of_rxTakes h)
  exact ne_deliver_of_isByteState (isByteState_iff.2 hr)

theorem rxStop_rxStepFrame (s : State) : rxStepFrame s (rxStop s) := by
  unfold rxStop
  split <;> exact ⟨sameTransmitter_refl s, fun _ => rfl, rfl, id, nofun⟩

theorem rxTimeout_rxStepFrame {s : State} (hr : s.rxState.isByteState = true) : rxStepFrame s (rxTimeout s) := by
  unfold rxTimeout
  split
  · exact ⟨sameTransmitter_refl s, fun _ => rfl, rfl, id, nofun⟩
  · exact ⟨sameTransmitter_refl s, fun _ => rfl, rfl, id, fun hd => absurd hd (ne_deliver_of_isByteState hr)⟩

theorem rxAckDone_rxStepFrame {s : State} (hr : s.rxState = .ackWait) (ha : s.ackReq = false) :
    rxStepFrame s (rxAckDone s) := by
  unfold rxAckDone
  split
  · exact ⟨sameTransmitter_refl s, fun _ => rfl, rfl, id, fun _ => ⟨hr, ha⟩⟩
  · exact ⟨sameTransmitter_refl s, fun _ => rfl, rfl, id, nofun⟩

/-- No rule of a field drops an Ack request or delivers (R130 to R139). -/
theorem rxField_ackReq_rxState {b : Byte} {s t : State} (hs : s.rxState.isAccum = true) (hf : s.fatal = false)
    (hq : s.stopReq = false) (h : rxField b s = .next t) : (s.ackReq = true → t.ackReq = true) ∧ t.rxState ≠ .deliver := by
  rcases rxField_cases hs hf hq h with
    ⟨-, rfl⟩ | ⟨-, rfl⟩ | ⟨-, rfl⟩ | ⟨-, rfl⟩ | ⟨-, rfl⟩ | ⟨-, -, -, rfl⟩ | ⟨hr, -, -, rfl⟩ | ⟨-, -, rfl⟩ |
    ⟨-, -, -, rfl⟩ | ⟨-, -, -, rfl⟩ | ⟨-, -, -, -, rfl⟩
  any_goals exact ⟨id, RxState.noConfusion⟩
  -- left over: the length byte, a body byte that is not the last, and the request of an Ack
  · exact ⟨id, by dsimp only; split <;> nofun⟩
  · exact ⟨id, by simp [hr]⟩
  · exact ⟨fun _ => rfl, nofun⟩

theorem badEscape_ackReq (w : Byte) (s : State) : (badEscape w s).ackReq = s.ackReq := by
  unfold badEscape; split <;> rfl

theorem badEscape_ne_deliver {w : Byte} {s : State} (hr : s.rxState.isAccum = true) : (badEscape w s).rxState ≠ .deliver := by
  unfold badEscape
  split
  · exact ne_deliver_of_isByteState (isByteState_iff.2 (.inr hr))
  · nofun

/-- A taken wire byte drops no Ack request and does not deliver (R127 to R139). -/
theorem exec_wireByte_ackReq_rxState {s t : State} {ctx : RxContext} {w : Byte} (ht : s.rxTakes ctx = true)
    (h : exec (decodeRxByte s.cfg ctx w) s = .next t) : (s.ackReq = true → t.ackReq = true) ∧ t.rxState ≠ .deliver := by
  obtain ⟨hf, hq, -⟩ := rxTakes_iff.1 ht
  rcases exec_wireByte_cases w ht with
    ⟨-, -, he⟩ | ⟨hr, -, he⟩ | ⟨hr, -, -, he⟩ | ⟨hr, -, -, he⟩ | ⟨b, hr, -, he⟩ <;> rw [he] at h
  · cases h; exact ⟨id, nofun⟩
  · cases h; exact ⟨id, by simp [hr]⟩
  · cases h; exact ⟨id, ne_deliver_of_isByteState (isByteState_iff.2 (.inr hr))⟩
  · cases h; exact ⟨fun ha => (badEscape_ackReq w _).trans ha, badEscape_ne_deliver hr⟩
  · exact rxField_ackReq_rxState (s := { s with rxEsc := false, rxSum := s.rxSum + b }) hr hf hq h

theorem exec_wireByte_rxStepFrame {s t : State} {ctx : RxContext} {w : Byte} (ht : s.rxTakes ctx = true)
    (h : exec (decodeRxByte s.cfg ctx w) s = .next t) : rxStepFrame s t := by
  obtain ⟨⟨-, hrest, -⟩, -⟩ := exec_wireByteRow_frame (decodeRxByte_mem s.cfg ctx w) h
  obtain ⟨hbuf, htx, -, -, -, -, -, -, -, -, hout, -⟩ := frame_of_eq_withReceiverOf hrest
  obtain ⟨hack, hr⟩ := exec_wireByte_ackReq_rxState ht h
  exact ⟨htx, hbuf, hout, hack, fun hd => absurd hd hr⟩

/-! ## A whole step, by the agent that writes -/

/-- The receiver, the transmitter, both buffers and the link's bytes are as before. -/
def sameBlock (s t : State) : Prop :=
  sameReceiver s t ∧ sameTransmitter s t ∧ sameTxbuf s t ∧ sameRxbuf s t ∧ t.linkOut = s.linkOut

theorem sameBlock_refl (s : State) : sameBlock s s :=
  ⟨⟨rfl, rfl, rfl, rfl, rfl, rfl, rfl, rfl, rfl, rfl⟩, sameTransmitter_refl s, fun _ => rfl, fun _ => rfl, rfl⟩

/-- A step changes nothing of the block, or is a reset, a command, a TXBUF write, an RX step outside a delivery, or a TX step. -/
theorem step_writer_cases {s t : State} (h : step s = .next t) :
    sameBlock s t ∨
    (∃ turns, s.sched = .reset :: turns ∧ t = applyReset { beginStep s with sched := turns }) ∨
    (∃ turns w acts i, s.hostq = .command w :: acts ∧ decode s.cfg (.cw w) = .instr i ∧
      exec i { beginStep s with sched := turns, hostq := acts } = .next t) ∨
    (∃ turns acts addr data, exec (.txbWrite addr data) { beginStep s with sched := turns, hostq := acts } = .next t) ∨
    (s.rxState ≠ .deliver ∧ rxStepFrame s t) ∨
    (∃ ready turns, s.fatal = false ∧ txStep ready { beginStep s with sched := turns } = .next t) := by
  rcases step_cases h with ⟨-, rfl⟩ | ⟨a, turns, hs, u, rfl, h⟩
  · exact .inl (sameBlock_refl s)
  rcases h with rfl | ⟨rfl, rfl⟩ | ⟨-, -, rfl⟩ | ⟨w, rest, i, -, hq, hd, -, h⟩ | ⟨w, rest, -, -, h⟩ | ⟨addr, rest, -, -, rfl⟩ |
    ⟨-, -, -, hr, -, rfl⟩ | ⟨ctx, w, rest, -, ht, -, h⟩ | ⟨rest, -, -, hr, -, -, rfl⟩ | ⟨-, -, -, hr, ha, rfl⟩ |
    ⟨ready, -, hf, h⟩
  · exact .inl (sameBlock_refl s)
  · exact .inr (.inl ⟨turns, hs, rfl⟩)
  · refine .inl ?_
    unfold linkError
    split <;> exact sameBlock_refl s
  · exact .inr (.inr (.inl ⟨turns, w, rest, i, hq, hd, h⟩))
  · exact .inr (.inr (.inr (.inl ⟨turns, rest, _, _, h⟩)))
  · exact .inl (sameBlock_refl s)
  · exact .inr (.inr (.inr (.inr (.inl
      ⟨ne_deliver_of_isByteState hr, rxStop_rxStepFrame { beginStep s with sched := turns }⟩))))
  · exact .inr (.inr (.inr (.inr (.inl ⟨ne_deliver_of_rxTakes ht,
      exec_wireByte_rxStepFrame (s := { beginStep s with sched := turns, linkq := rest }) ht h⟩))))
  · exact .inr (.inr (.inr (.inr (.inl ⟨ne_deliver_of_isByteState hr,
      rxTimeout_rxStepFrame (s := { beginStep s with sched := turns, linkq := rest }) hr⟩))))
  · exact .inr (.inr (.inr (.inr (.inl ⟨by simp [hr],
      rxAckDone_rxStepFrame (s := { beginStep s with sched := turns }) hr ha⟩))))
  · exact .inr (.inr (.inr (.inr (.inr ⟨ready, turns, hf, h⟩))))

/-! ## What no step but reset disturbs -/

/-- Settles O51: only a TX step writes the frame in flight or hands the link a byte, and the invariant keeps `tx_rem` empty where a
LOAD would replace it. -/
theorem framesDoNotInterleave : Obligations.FramesDoNotInterleave := by
  intro s t hinv h
  rcases step_writer_cases h with
    ⟨-, ⟨-, -, -, -, -, hkind, hseq, hrem⟩, -, -, hout⟩ | ⟨turns, hs, rfl⟩ | ⟨turns, w, acts, i, -, hd, h⟩ |
    ⟨turns, acts, addr, data, h⟩ | ⟨-, ⟨-, -, -, -, -, hkind, hseq, hrem⟩, -, hout, -⟩ | ⟨ready, turns, hf, h⟩
  · exact .inl ⟨hout, fun _ _ => ⟨hrem, hkind, hseq⟩⟩
  · exact .inl ⟨rfl, fun _ hno => absurd hs (hno turns)⟩
  · obtain ⟨u, rfl, -⟩ := exec_command_writes hd h
    exact .inl ⟨rfl, fun _ _ => ⟨rfl, rfl, rfl⟩⟩
  · obtain ⟨m, ev, evs, rfl, -⟩ := exec_txbWrite_writes h
    exact .inl ⟨rfl, fun _ _ => ⟨rfl, rfl, rfl⟩⟩
  · exact .inl ⟨hout, fun _ _ => ⟨hrem, hkind, hseq⟩⟩
  · rcases txStep_handsOverHead (s := { beginStep s with sched := turns }) hf hinv.idleEmpty h with ⟨hout, hkeep⟩ | hhead
    · exact .inl ⟨hout, fun hne _ => hkeep hne⟩
    · exact .inr hhead

/-- Settles O52: only a TXBUF write writes TXBUF, and one that finds a Message queued or in flight is refused. -/
theorem txbufIsFixedWhileMessageBusy : Obligations.TxbufIsFixedWhileMessageBusy := by
  intro s t hbusy hno h
  rcases step_writer_cases h with
    ⟨-, -, hbuf, -⟩ | ⟨turns, hs, -⟩ | ⟨turns, w, acts, i, -, hd, h⟩ | ⟨turns, acts, addr, data, h⟩ | ⟨-, -, hbuf, -⟩ |
    ⟨ready, turns, hf, h⟩
  · exact hbuf
  · exact absurd hs (hno turns)
  · obtain ⟨u, rfl, -⟩ := exec_command_writes hd h
    exact fun _ => rfl
  · obtain ⟨m, ev, evs, rfl, hm⟩ := exec_txbWrite_writes h
    exact fun a => congrArg (Memory.read · a) (hm hbusy)
  · exact hbuf
  · obtain ⟨u, rfl, -⟩ := txStep_writes (s := { beginStep s with sched := turns }) hf h
    exact fun _ => rfl

/-- Settles O53: no RX step is taken in a delivery, and of the other agents only a command writes `rx_state`, by RX_RELEASE. -/
theorem deliveryIsStable : Obligations.DeliveryIsStable := by
  intro s t hr hno h
  rcases step_writer_cases h with
    ⟨⟨hst, -, -, hver, hmod, hseq, htype, hlen, -⟩, -, -, hbuf, -⟩ | ⟨turns, hs, -⟩ | ⟨turns, w, acts, i, hq, hd, h⟩ |
    ⟨turns, acts, addr, data, h⟩ | ⟨hne, -⟩ | ⟨ready, turns, hf, h⟩
  · exact ⟨hbuf, hver, hmod, hseq, htype, hlen, fun hleft => absurd (hst.trans hr) hleft⟩
  · exact absurd hs (hno turns)
  · obtain ⟨u, rfl, hu⟩ := exec_command_writes hd h
    refine ⟨fun _ => rfl, rfl, rfl, rfl, rfl, rfl, fun hleft => ?_⟩
    rcases hu with hu | ⟨hstop, -⟩ | ⟨rfl, -⟩
    · exact absurd (hu.trans hr) hleft
    · cases hr.symm.trans hstop
    · exact ⟨w, acts, hq, hd⟩
  · obtain ⟨m, ev, evs, rfl, -⟩ := exec_txbWrite_writes h
    exact ⟨fun _ => rfl, rfl, rfl, rfl, rfl, rfl, fun hleft => absurd hr hleft⟩
  · exact absurd hr hne
  · obtain ⟨u, rfl, -⟩ := txStep_writes (s := { beginStep s with sched := turns }) hf h
    exact ⟨fun _ => rfl, rfl, rfl, rfl, rfl, rfl, fun hleft => absurd hr hleft⟩

/-- Settles O54: only an RX step enters `DELIVER`, out of `ACK_WAIT`, and only COMPLETE of an Ack drops the request. -/
theorem ackPrecedesDelivery : Obligations.AckPrecedesDelivery := by
  intro s t h
  rcases step_writer_cases h with
    ⟨⟨hst, -, -, -, -, -, -, -, -, hack⟩, -⟩ | ⟨turns, hs, rfl⟩ | ⟨turns, w, acts, i, -, hd, h⟩ |
    ⟨turns, acts, addr, data, h⟩ | ⟨-, -, -, -, hack, hdel⟩ | ⟨ready, turns, hf, h⟩
  · exact ⟨fun hne hd => absurd (hst.symm.trans hd) hne, fun ha hn _ => by cases (hack.trans ha).symm.trans hn⟩
  · exact ⟨fun _ => nofun, fun _ _ hno => absurd hs (hno turns)⟩
  · obtain ⟨u, rfl, hu⟩ := exec_command_writes hd h
    refine ⟨fun hne hd => ?_, fun ha hn _ => by cases ha.symm.trans hn⟩
    rcases hu with hu | ⟨-, hu⟩ | ⟨-, hu⟩
    · exact absurd (hu.symm.trans hd) hne
    · cases hu.symm.trans hd
    · cases hu.symm.trans hd
  · obtain ⟨m, ev, evs, rfl, -⟩ := exec_txbWrite_writes h
    exact ⟨fun hne hd => absurd hd hne, fun ha hn _ => by cases ha.symm.trans hn⟩
  · exact ⟨fun _ hd => hdel hd, fun ha hn _ => by cases (hack ha).symm.trans hn⟩
  · obtain ⟨u, rfl, hu⟩ := txStep_writes (s := { beginStep s with sched := turns }) hf h
    exact ⟨fun hne hd => absurd hd hne, fun ha hn _ => hu ha hn⟩

end Sys2Proof.Machine

/-! PROOFS. The encodings: the fields of a word and the word of its fields (R81), the decoder against the encoder in both directions
(R80, R84), and un-stuffing and the exact length of a stuffed frame (R76, R77, R85, R103). -/

namespace Sys2Proof.Machine

/-! ## The fields of an encoded word -/

@[simp] theorem commandReserved_encodeCommand (code : BitVec 3) (len : Byte) (opcode : Opcode) :
    commandReserved (encodeCommand code len opcode) = 0#5 := by
  unfold commandReserved encodeCommand
  rw [BitVec.extractLsb'_append_eq_of_le (by decide), BitVec.extractLsb'_append_eq_of_le (by decide),
    BitVec.extractLsb'_append_eq_left]
  rfl

@[simp] theorem commandCode_encodeCommand (code : BitVec 3) (len : Byte) (opcode : Opcode) :
    commandCode (encodeCommand code len opcode) = code := by
  unfold commandCode encodeCommand
  rw [BitVec.extractLsb'_append_eq_of_le (by decide), BitVec.extractLsb'_append_eq_of_le (by decide),
    BitVec.extractLsb'_append_eq_right]

@[simp] theorem commandLen_encodeCommand (code : BitVec 3) (len : Byte) (opcode : Opcode) :
    commandLen (encodeCommand code len opcode) = len := by
  unfold commandLen encodeCommand
  rw [BitVec.extractLsb'_append_eq_of_le (by decide), BitVec.extractLsb'_append_eq_right]

@[simp] theorem commandOpcode_encodeCommand (code : BitVec 3) (len : Byte) (opcode : Opcode) :
    commandOpcode (encodeCommand code len opcode) = opcode :=
  BitVec.extractLsb'_append_eq_right

/-- A command word with CW[31:27] = 0 is the word of its fields (R81). -/
theorem encodeCommand_fields {w : CommandWord} (h : commandReserved w = 0#5) :
    encodeCommand (commandCode w) (commandLen w) (commandOpcode w) = w := by
  have hfields : commandReserved w ++ commandCode w ++ commandLen w ++ commandOpcode w = w := by
    unfold commandReserved commandCode commandLen commandOpcode
    rw [BitVec.extractLsb'_append_extractLsb'_eq_extractLsb' (by rfl), BitVec.extractLsb'_append_extractLsb'_eq_extractLsb' (by rfl),
      BitVec.extractLsb'_append_extractLsb'_eq_extractLsb' (by rfl), BitVec.extractLsb'_eq_self]
  rwa [h] at hfields

@[simp] theorem decodeTxbWrite_encodeTxbWrite (addr data : Byte) :
    decodeTxbWrite (encodeTxbWrite addr data) = .txbWrite addr data := by
  unfold decodeTxbWrite txbWordAddr txbWordData encodeTxbWrite
  rw [BitVec.extractLsb'_append_eq_left, BitVec.extractLsb'_append_eq_right]

theorem encodeTxbWrite_fields (w : TxbWord) : encodeTxbWrite (txbWordAddr w) (txbWordData w) = w := by
  unfold encodeTxbWrite txbWordAddr txbWordData
  rw [BitVec.extractLsb'_append_extractLsb'_eq_extractLsb' (by rfl), BitVec.extractLsb'_eq_self]

/-! ## Decoding an encoded instruction -/

/-- The length tells the two rows of command code 3 apart (R84). -/
theorem decodeSend_cases (c : Config) (opcode : Opcode) (len : Byte) :
    (len.toNat ≤ c.maxPayload ∧ decodeSend c opcode len = .send opcode len) ∨
    (c.maxPayload < len.toNat ∧ decodeSend c opcode len = .sendOversize len) := by
  unfold decodeSend
  rcases Nat.lt_or_ge c.maxPayload len.toNat with h | h
  · exact .inr ⟨h, if_neg (Nat.not_le.2 h)⟩
  · exact .inl ⟨h, if_pos h⟩

theorem decode_encodeCommand_send (c : Config) (opcode : Opcode) (len : Byte) :
    decode c (.cw (encodeCommand 3 len opcode)) = .instr (decodeSend c opcode len) := by
  have h := decode_cw_send c (commandReserved_encodeCommand 3 len opcode) (commandCode_encodeCommand 3 len opcode)
  rwa [commandLen_encodeCommand, commandOpcode_encodeCommand] at h

/-- Settles O40: the fields of an encoded word are read back, and of the rows that share a context the operand checks leave exactly the
row that was encoded. -/
theorem decodeInvertsEncode : Obligations.DecodeInvertsEncode := by
  intro c i hwf hne hi
  cases i with
  | nop | start | stop | rxRelease | rsvd5 | rsvd6 | rsvd7 => rfl
  | send opcode len =>
    have hlen : len.toNat ≤ c.maxPayload := of_decide_eq_true hi
    exact (decode_encodeCommand_send c opcode len).trans (congrArg _ (if_pos hlen))
  | sendOversize len =>
    have hlen : c.maxPayload < len.toNat := of_decide_eq_true hi
    exact (decode_encodeCommand_send c 0 len).trans (congrArg _ (if_neg (Nat.not_le.2 hlen)))
  | txbWrite addr data => exact congrArg _ (decodeTxbWrite_encodeTxbWrite addr data)
  | rxHuntSync | rxEscPrefix | rxEscSync | ftMsg => exact congrArg _ (if_pos rfl)
  | rxHuntDiscard w | rxLit w => exact congrArg _ (if_neg (bne_iff_ne.1 hi))
  | rxEscEsc =>
    have hsub : c.subEsc ≠ c.subSync := (config_wf_iff.1 hwf).2.symm
    exact congrArg _ ((if_neg hsub).trans (if_pos rfl))
  | rxEscBad w =>
    obtain ⟨hsync, hesc⟩ : w ≠ c.subSync ∧ w ≠ c.subEsc := by simpa [Instr.wellFormed] using hi
    exact congrArg _ ((if_neg hsync).trans (if_neg hesc))
  | ftAck => exact congrArg _ ((if_neg hne.symm).trans (if_pos rfl))
  | ftOther t =>
    obtain ⟨hmsg, hack⟩ : t ≠ c.typeMsg ∧ t ≠ c.typeAck := by simpa [Instr.wellFormed] using hi
    exact congrArg _ ((if_neg hmsg).trans (if_neg hack))

/-! ## Encoding a decoded word -/

/-- What a command word decodes to meets the operand check of its row. -/
theorem wellFormed_of_decode_cw {c : Config} {w : CommandWord} {i : Instr} (h : decode c (.cw w) = .instr i) :
    i.wellFormed c = true := by
  rcases decode_cw_cases h with
    rfl | rfl | rfl | ⟨opcode, len, rfl, hlen, -⟩ | ⟨len, rfl, hlen, -⟩ | rfl | rfl | rfl | rfl
  case inr.inr.inr.inl | inr.inr.inr.inr.inl => exact decide_eq_true hlen
  all_goals rfl

/-- What a wire byte decodes to is well-formed and has that byte as its word (R84). -/
theorem decodeRxByte_wellFormed_encode (c : Config) (ctx : RxContext) (w : Byte) :
    (decodeRxByte c ctx w).wellFormed c = true ∧ encode c (decodeRxByte c ctx w) = .rxb ctx w := by
  cases ctx with
  | hunt => by_cases h : w = c.sync <;> simp [decodeRxByte, Instr.wellFormed, encode, h]
  | plain => by_cases h : w = c.esc <;> simp [decodeRxByte, Instr.wellFormed, encode, h]
  | escaped =>
    by_cases h : w = c.subSync
    · simp [decodeRxByte, Instr.wellFormed, encode, h]
    · by_cases h' : w = c.subEsc
      · subst h'; simp [decodeRxByte, Instr.wellFormed, encode, h]
      · simp [decodeRxByte, Instr.wellFormed, encode, h, h']

/-- What a frame type decodes to is well-formed and has that byte as its word (R84). -/
theorem decodeFrameType_wellFormed_encode (c : Config) (t : Byte) :
    (decodeFrameType c t).wellFormed c = true ∧ encode c (decodeFrameType c t) = .ft t := by
  by_cases h : t = c.typeMsg
  · simp [decodeFrameType, Instr.wellFormed, encode, h]
  · by_cases h' : t = c.typeAck
    · subst h'; simp [decodeFrameType, Instr.wellFormed, encode, h]
    · simp [decodeFrameType, Instr.wellFormed, encode, h, h']

/-- Only a command word with CW[31:27] ≠ 0 is rejected: with 0 there, every code is a command (R80, R81). -/
theorem reserved_of_decode_cw_reject {c : Config} {w : CommandWord} {e : DecodeError} (h : decode c (.cw w) = .reject e) :
    e = .notACommand w ∧ commandReserved w ≠ 0#5 := by
  by_cases hres : commandReserved w = 0#5
  · simp only [decode, decodeCommand, if_pos hres] at h
    split at h <;> cases h
  · cases (decode_cw_reject c hres).symm.trans h
    exact ⟨rfl, hres⟩

/-- A word that decodes to a SEND is the SEND's own word (R81). -/
theorem encodeCommand_of_decode_send {c : Config} {w : CommandWord} {opcode : Opcode} {len : Byte}
    (h : decode c (.cw w) = .instr (.send opcode len)) : encodeCommand 3 len opcode = w := by
  have hres : commandReserved w = 0#5 := by
    by_contra hne
    cases (decode_cw_reject c hne).symm.trans h
  obtain ⟨-, hcode⟩ : len.toNat ≤ c.maxPayload ∧ commandCode w = 3#3 := by simpa using decode_cw_cases h
  have hsend := (decode_cw_send c hres hcode).symm.trans h
  rcases decodeSend_cases c (commandOpcode w) (commandLen w) with ⟨-, heq⟩ | ⟨-, heq⟩ <;> rw [heq] at hsend <;> cases hsend
  have hfields := encodeCommand_fields hres
  rwa [hcode] at hfields

/-- Settles O41: each of the four formats by its own lemma; only the command words can be rejected. -/
theorem decodedInstructionsAreWellFormed : Obligations.DecodedInstructionsAreWellFormed := by
  intro c w
  cases w with
  | cw w =>
    refine ⟨fun i h => wellFormed_of_decode_cw h, fun e h => ?_, fun i h hsend => ?_⟩
    · obtain ⟨he, hres⟩ := reserved_of_decode_cw_reject h
      exact ⟨w, rfl, he, hres⟩
    · obtain ⟨opcode, len, rfl⟩ := hsend w rfl
      exact congrArg _ (encodeCommand_of_decode_send h)
  | tw w =>
    have henc : encode c (decodeTxbWrite w) = .tw w := congrArg _ (encodeTxbWrite_fields w)
    exact ⟨fun _ h => Decoded.instr.inj h ▸ rfl, nofun, fun _ h _ => Decoded.instr.inj h ▸ henc⟩
  | rxb ctx w =>
    obtain ⟨hwf, henc⟩ := decodeRxByte_wellFormed_encode c ctx w
    exact ⟨fun _ h => Decoded.instr.inj h ▸ hwf, nofun, fun _ h _ => Decoded.instr.inj h ▸ henc⟩
  | ft t =>
    obtain ⟨hwf, henc⟩ := decodeFrameType_wellFormed_encode c t
    exact ⟨fun _ h => Decoded.instr.inj h ▸ hwf, nofun, fun _ h _ => Decoded.instr.inj h ▸ henc⟩

/-- Settles O42: ten fixed words, read by the decoder. -/
theorem specWordsDecode : Obligations.SpecWordsDecode := by
  unfold Obligations.SpecWordsDecode
  decide

/-! ## Un-stuffing -/

/-- Un-stuffing reads a byte that is not `ESC` as itself (R77). -/
theorem unstuffAll_cons_of_ne {c : Config} {b : Byte} (h : b ≠ c.esc) (bs : List Byte) :
    unstuffAll c (b :: bs) = (unstuffAll c bs).map (b :: ·) := by
  cases bs <;> simp [unstuffAll, h]

/-- Un-stuffing reads `ESC` and a valid substitute as the byte that the substitute stands for (R77, R94). -/
theorem unstuffAll_esc_cons {c : Config} {s l : Byte} (h : unstuff c s = some l) (bs : List Byte) :
    unstuffAll c (c.esc :: s :: bs) = (unstuffAll c bs).map (l :: ·) := by
  simp only [unstuffAll, if_true, h]
  cases unstuffAll c bs <;> rfl

theorem unstuffAll_stuff_append {c : Config} (hwf : c.wf = true) (b : Byte) (bs : List Byte) :
    unstuffAll c (stuff c b ++ bs) = (unstuffAll c bs).map (b :: ·) := by
  rcases stuff_cases c b with ⟨rfl, h⟩ | ⟨-, rfl, h⟩ | ⟨-, hesc, h⟩ <;> rw [h]
  · exact unstuffAll_esc_cons (unstuff_subSync c) bs
  · exact unstuffAll_esc_cons (unstuff_subEsc hwf) bs
  · exact unstuffAll_cons_of_ne hesc bs

/-- Settles O39, by induction on the logical bytes after the first. -/
theorem unstuffingInvertsStuffing : Obligations.UnstuffingInvertsStuffing := by
  intro c b bs hwf
  simp only [wire_cons, List.tail_cons]
  induction bs with
  | nil => rfl
  | cons x xs ih => rw [stuffAll_cons, unstuffAll_stuff_append hwf, ih]; rfl

/-! ## The wire length reached, and the length of an Ack -/

theorem length_stuff_eq_two {c : Config} {b : Byte} (h : b = c.sync ∨ b = c.esc) : (stuff c b).length = 2 := by
  rcases stuff_cases c b with ⟨-, hb⟩ | ⟨-, -, hb⟩ | ⟨hs, he, -⟩
  · rw [hb]; rfl
  · rw [hb]; rfl
  · exact absurd h (not_or.2 ⟨hs, he⟩)

theorem length_stuffAll_replicate {c : Config} {b : Byte} (h : b = c.sync ∨ b = c.esc) (n : Nat) :
    (stuffAll c (List.replicate n b)).length = 2 * n := by
  induction n with
  | zero => rfl
  | succ n ih => rw [List.replicate_succ, stuffAll_cons, List.length_append, length_stuff_eq_two h, ih]; omega

theorem checksum_replicate (n : Nat) (b : Byte) : checksum (List.replicate n b) = BitVec.ofNat 8 n * b := by
  induction n with
  | zero => simp
  | succ n ih =>
    rw [List.replicate_succ, checksum_cons, ih, BitVec.ofNat_add, BitVec.add_mul, BitVec.add_comm]
    simp

/-- A payload of 253 bytes that are all stuffed, with as many `SYNC` among them as make the checksum of a frame whose number and
opcode bytes are `ESC` a stuffed byte too. -/
def longestPayload : List Byte := List.replicate 134 0xA4 ++ List.replicate 119 0x1B

theorem length_longestPayload : longestPayload.length = 253 := by
  rw [longestPayload, List.length_append, List.length_replicate, List.length_replicate]

theorem cks_longestPayload : cks (messageHead Config.default 0x1B 0x1B1B longestPayload) = 0xA4 := by
  rw [cks, messageHead, checksum_append, length_longestPayload, longestPayload, checksum_append, checksum_replicate,
    checksum_replicate]
  decide

/-- The longest payload's frame takes 519 wire bytes: only `SYNC` at position 0, version, module id, type and length are not doubled
(R85). -/
theorem length_wire_longestPayload :
    (wire Config.default (frameMsg Config.default 0x1B 0x1B1B longestPayload)).length = 519 := by
  have hsync := length_stuffAll_replicate (c := Config.default) (b := 0xA4) (.inl rfl) 134
  have hesc := length_stuffAll_replicate (c := Config.default) (b := 0x1B) (.inr rfl) 119
  have hpay : (stuffAll Config.default longestPayload).length = 506 := by
    rw [longestPayload, stuffAll_append, List.length_append, hsync, hesc]
  rw [frameMsg, cks_longestPayload, messageHead, length_longestPayload]
  simp only [List.cons_append, List.nil_append, wire_cons, stuffAll_cons, stuffAll_append, List.length_cons, List.length_append, hpay]
  rfl

/-- Of an Ack frame only the number and the checksum can be stuffed (R85). -/
theorem length_wire_frameAck (seq : Byte) :
    (wire Config.default (frameAck Config.default seq)).length =
      5 + (stuff Config.default seq).length + (stuff Config.default (cks (ackHead Config.default seq))).length := by
  rw [frameAck]
  generalize cks (ackHead Config.default seq) = k
  have hver : (stuff Config.default Config.default.version).length = 1 := rfl
  have hmod : (stuff Config.default Config.default.moduleId).length = 1 := rfl
  have htype : (stuff Config.default Config.default.typeAck).length = 1 := rfl
  have hlen : (stuff Config.default 0).length = 1 := rfl
  simp only [ackHead, List.cons_append, List.nil_append, wire_cons, stuffAll_cons, stuffAll_nil, List.length_cons, List.length_append,
    List.length_nil, hver, hmod, htype, hlen]
  omega

theorem length_stuff_eq_one_or_two (c : Config) (b : Byte) : (stuff c b).length = 1 ∨ (stuff c b).length = 2 := by
  rcases stuff_cases c b with ⟨-, h⟩ | ⟨-, -, h⟩ | ⟨-, -, h⟩ <;> simp [h]

/-- Settles O37: the bound that LOAD keeps, a frame that reaches it, and an Ack, whose number and checksum are not both stuffed. -/
theorem wireFrameIsAtMost519Bytes : Obligations.WireFrameIsAtMost519Bytes := by
  refine ⟨fun seq opcode payload hp => ?_, ⟨_, _, _, length_longestPayload, length_wire_longestPayload⟩, fun seq => ?_⟩
  · exact length_wire_frameMsg_le Config.default.maxBody Config.default.escapeErrorFatal Config.default.seqInit seq opcode hp
  · rw [length_wire_frameAck]
    rcases stuff_cases Config.default seq with ⟨rfl, -⟩ | ⟨-, rfl, -⟩ | ⟨-, -, hseq⟩
    · exact .inr rfl
    · exact .inr rfl
    · rw [hseq, List.length_singleton]
      rcases length_stuff_eq_one_or_two Config.default (cks (ackHead Config.default seq)) with h | h <;> simp [h]

end Sys2Proof.Machine

/-! PROOFS. The codec: the sum of a frame and what it detects (R90 to R92, R102), the exact length of a stuffed frame (R95, R103),
and what stands in a stuffed stream (R101). -/

namespace Sys2Proof.Machine

/-! ## The sum of a frame -/

/-- The checksum byte makes the sum 0 (R91). -/
theorem checksum_append_cks (bs : List Byte) : checksum (bs ++ [cks bs]) = 0 := by
  simp [checksum_append, cks]

theorem checksum_frameMsg (c : Config) (seq : Byte) (opcode : Opcode) (payload : List Byte) :
    checksum (frameMsg c seq opcode payload) = 0 := checksum_append_cks (messageHead c seq opcode payload)

theorem checksum_frameAck (c : Config) (seq : Byte) : checksum (frameAck c seq) = 0 := checksum_append_cks (ackHead c seq)

theorem verify_iff {f : List Byte} : verify f = true ↔ checksum f = 0 := beq_iff_eq

/-- Settles O34: the checksum byte makes the sum 0, whatever stands before it. -/
theorem builtFramesSumToZero : Obligations.BuiltFramesSumToZero :=
  ⟨fun c seq opcode payload =>
    have hmsg := checksum_frameMsg c seq opcode payload
    have hack := checksum_frameAck c seq
    ⟨hmsg, hack, verify_iff.2 hmsg, verify_iff.2 hack⟩, by decide⟩

/-- The checksum is the sum of the bytes modulo 256 (R90). -/
theorem toNat_checksum (f : List Byte) : (checksum f).toNat = (f.map BitVec.toNat).sum % 256 := by
  induction f with
  | nil => rfl
  | cons b bs ih => rw [checksum_cons, BitVec.toNat_add, ih, List.map_cons, List.sum_cons, Nat.add_mod_mod]

/-- The sum depends on each byte by itself: two frames that differ in one byte have different sums. -/
theorem checksum_replace_inj {before after : List Byte} {b b' : Byte}
    (h : checksum (before ++ b :: after) = checksum (before ++ b' :: after)) : b = b' := by
  rw [checksum_append, checksum_append, checksum_cons, checksum_cons] at h
  exact add_right_cancel (add_left_cancel h)

/-- What is added to one byte and taken from another leaves the sum. -/
theorem checksum_shift (before between after : List Byte) (b b' d : Byte) :
    checksum (before ++ (b + d) :: between ++ (b' - d) :: after) = checksum (before ++ b :: between ++ b' :: after) := by
  simp only [List.append_assoc, List.cons_append, checksum_append, checksum_cons]
  ring

/-- Settles O35: the sum modulo 256 is injective in each single byte, and blind to a change of two that keeps it. -/
theorem singleByteErrorIsDetected : Obligations.SingleByteErrorIsDetected := by
  refine ⟨fun f => ?_, fun before after b b' hne h => ?_, fun before between after b b' d h => ?_⟩
  · rw [verify_iff, ← toNat_checksum, ← BitVec.toNat_inj]
    rfl
  · refine Bool.eq_false_iff.2 fun h' => hne ?_
    exact checksum_replace_inj ((verify_iff.1 h).trans (verify_iff.1 h').symm)
  · rw [verify_iff, checksum_shift]
    exact verify_iff.1 h

/-! ## The length of a stuffed frame -/

theorem length_stuff (c : Config) (b : Byte) : (stuff c b).length = if b = c.sync ∨ b = c.esc then 2 else 1 := by
  rcases stuff_cases c b with ⟨hb, h⟩ | ⟨-, hb, h⟩ | ⟨hs, he, h⟩
  · rw [h, if_pos (.inl hb)]; rfl
  · rw [h, if_pos (.inr hb)]; rfl
  · rw [h, if_neg (not_or.2 ⟨hs, he⟩)]; rfl

/-- The second byte of a stuffed pair stands for the byte stuffed (R93, R94). -/
theorem unstuff_of_stuff_second {c : Config} (hwf : c.wf = true) {b x : Byte} (h : (stuff c b)[1]? = some x) :
    unstuff c x = some b := by
  rcases stuff_cases c b with ⟨rfl, hb⟩ | ⟨-, rfl, hb⟩ | ⟨-, -, hb⟩ <;> rw [hb] at h <;> cases h
  · exact unstuff_subSync c
  · exact unstuff_subEsc hwf

/-- Stuffing adds one byte for each `SYNC` and each `ESC` (R103). -/
theorem length_stuffAll (c : Config) (bs : List Byte) :
    (stuffAll c bs).length = bs.length + bs.countP (fun x => x = c.sync ∨ x = c.esc) := by
  induction bs with
  | nil => rfl
  | cons b bs ih =>
    rw [stuffAll_cons, List.length_append, length_stuff, ih, List.length_cons, List.countP_cons]
    by_cases h : b = c.sync ∨ b = c.esc <;> simp [h] <;> omega

/-- Settles O36: one byte by its three forms, and a frame by the count of the bytes that are doubled. -/
theorem stuffedLengthIsExact : Obligations.StuffedLengthIsExact := by
  intro c b bs
  have hwire : (wire c (b :: bs)).length = (b :: bs).length + bs.countP (fun x => x = c.sync ∨ x = c.esc) := by
    rw [wire_cons, List.length_cons, length_stuffAll, List.length_cons]
    omega
  refine ⟨length_stuff c b, fun hwf x hx => unstuff_of_stuff_second hwf hx, hwire, ?_⟩
  have hcount : bs.countP (fun x => x = c.sync ∨ x = c.esc) ≤ bs.length := List.countP_le_length
  rw [hwire, List.length_cons]
  omega

/-! ## The stuffed stream -/

/-- A stuffed byte keeps the stream after it escaped: it is a pair with a valid substitute, or neither `SYNC` nor `ESC` (R93). -/
theorem escapedStream_stuff_append (c : Config) (b : Byte) {ws : List Byte} (h : escapedStream c ws) :
    escapedStream c (stuff c b ++ ws) := by
  rcases stuff_cases c b with ⟨-, hb⟩ | ⟨-, -, hb⟩ | ⟨hsync, hesc, hb⟩ <;> rw [hb]
  · simpa [escapedStream] using h
  · simpa [escapedStream] using h
  · cases ws with
    | nil => exact ⟨hesc, hsync⟩
    | cons w ws => simpa [escapedStream, hsync, hesc] using h

theorem escapedStream_stuffAll (c : Config) (bs : List Byte) : escapedStream c (stuffAll c bs) := by
  induction bs with
  | nil => trivial
  | cons b bs ih => exact escapedStream_stuff_append c b ih

/-- Where no byte of an escape pair is `SYNC`, no stuffed byte is (R101). -/
theorem sync_not_mem_stuffAll {c : Config} (hpair : c.sync ∉ [c.esc, c.subSync, c.subEsc]) (bs : List Byte) :
    c.sync ∉ stuffAll c bs := by
  induction bs with
  | nil => exact List.not_mem_nil
  | cons b bs ih =>
    rw [stuffAll_cons, List.mem_append, not_or]
    refine ⟨?_, ih⟩
    simp only [List.mem_cons, List.not_mem_nil, or_false, not_or] at hpair
    obtain ⟨hesc, hsubSync, hsubEsc⟩ := hpair
    rcases stuff_cases c b with ⟨-, hb⟩ | ⟨-, -, hb⟩ | ⟨hne, -, hb⟩ <;> rw [hb]
    · simp [hesc, hsubSync]
    · simp [hesc, hsubEsc]
    · simp [hne.symm]

/-- Settles O38, by induction on the logical bytes; of the document's constants only `SYNC` itself is 0xA4. -/
theorem wireStreamIsEscaped : Obligations.WireStreamIsEscaped :=
  ⟨fun c _ bs => escapedStream_stuffAll c bs, fun _ bs => sync_not_mem_stuffAll (c := Config.default) (by decide) bs⟩

end Sys2Proof.Machine

/-! PROOFS. A receiver fed with a frame's wire bytes (R100): one logical byte a stuffed group (R128), the fields of a Message in order
(R130 to R137), and the state it waits in for the Ack. -/

namespace Sys2Proof.Machine

/-! ## Turns that feed a byte -/

/-- `s` as `n` quiet steps leave it: the event ports carry nothing, the steps are counted. -/
def State.later (s : State) (n : Nat) : State := { s with rxEv := none, txEv := none, ctlEv := none, ticks := s.ticks + n }

theorem State.later_later (s : State) (m n : Nat) : (s.later m).later n = s.later (m + n) := by
  simp only [State.later, Nat.add_assoc]

/-- A run that ends in another run's start is one run. -/
theorem run_trans {m n : Nat} {s t u : State} (h : core.run m s = .next t) (h' : core.run n t = .next u) :
    core.run (m + n) s = .next u := (run_add h).trans h'

theorem run_one {s t : State} (h : step s = .next t) : core.run 1 s = .next t := run_succ h

/-- The first turn of a fed receiver runs the row of the first byte (R84, R125). -/
theorem step_fedWith_cons {s : State} {ctx : RxContext} (w : Byte) (ws : List Byte) (ht : s.rxTakes ctx = true) :
    step (s.fedWith (w :: ws)) = exec (decodeRxByte s.cfg ctx w) ((s.later 1).fedWith ws) :=
  have ⟨_, _, hbyte⟩ := stepRunsDecodedInstruction
  hbyte (s.fedWith (w :: ws)) w ctx _ _ rfl rfl ht

/-! ## The rows of a frame's bytes -/

theorem rxTakes_hunt_iff {s : State} : s.rxTakes .hunt = true ↔ s.fatal = false ∧ s.stopReq = false ∧ s.rxState = .hunt := by
  simp [rxTakes_iff, rxContext_eq_some]

theorem rxTakes_plain_iff {s : State} :
    s.rxTakes .plain = true ↔ s.fatal = false ∧ s.stopReq = false ∧ s.rxState.isAccum = true ∧ s.rxEsc = false := by
  simp [rxTakes_iff, rxContext_eq_some]

theorem rxTakes_escaped_of_plain {s : State} (h : s.rxTakes .plain = true) :
    ({ s with rxEsc := true } : State).rxTakes .escaped = true := by
  obtain ⟨hf, hq, hr, -⟩ := rxTakes_plain_iff.1 h
  exact rxTakes_iff.2 ⟨hf, hq, rxContext_eq_some.2 (.inr (.inr ⟨rfl, hr, rfl⟩))⟩

theorem exec_hunt_sync {s : State} (h : s.rxTakes .hunt = true) :
    exec (decodeRxByte s.cfg .hunt s.cfg.sync) s = .next { s with rxSum := s.cfg.sync, rxEsc := false, rxState := .ver } := by
  simp only [decodeRxByte, if_true]
  exact if_pos h

theorem exec_plain_literal {s : State} (h : s.rxTakes .plain = true) {b : Byte} (hb : b ≠ s.cfg.esc) :
    exec (decodeRxByte s.cfg .plain b) s = acceptByte b s := by
  simp only [decodeRxByte, if_neg hb]
  exact if_pos h

theorem exec_plain_esc {s : State} (h : s.rxTakes .plain = true) :
    exec (decodeRxByte s.cfg .plain s.cfg.esc) s = .next { s with rxEsc := true } := by
  simp only [decodeRxByte, if_true]
  exact if_pos h

theorem exec_escaped_substitute {s : State} (h : s.rxTakes .escaped = true) {x b : Byte} (hx : unstuff s.cfg x = some b) :
    exec (decodeRxByte s.cfg .escaped x) s = acceptByte b { s with rxEsc := false } := by
  rcases decodeRxByte_escaped s.cfg x with ⟨hu, -⟩ | ⟨hu, hd⟩ | ⟨hu, hd⟩ <;> cases hx.symm.trans hu
  · rw [hd]; exact if_pos h
  · rw [hd]; exact if_pos h

/-! ## One logical byte -/

/-- An escape pair brings the byte that its substitute stands for (R128). -/
theorem run_escapePair {s t : State} {x b : Byte} (ws : List Byte) (ht : s.rxTakes .plain = true) (hx : unstuff s.cfg x = some b)
    (h : acceptByte b ((s.later 2).fedWith ws) = .next t) : core.run 2 (s.fedWith (s.cfg.esc :: x :: ws)) = .next t := by
  have hfirst : step (s.fedWith (s.cfg.esc :: x :: ws)) = .next (({ s with rxEsc := true } : State).later 1 |>.fedWith (x :: ws)) :=
    (step_fedWith_cons s.cfg.esc (x :: ws) ht).trans (exec_plain_esc (s := (s.later 1).fedWith (x :: ws)) ht)
  have htaken := rxTakes_escaped_of_plain ht
  obtain ⟨-, -, -, hesc⟩ := rxTakes_plain_iff.1 ht
  have hsame : { (s.later 2).fedWith ws with rxEsc := false } = (s.later 2).fedWith ws := by
    rw [← hesc]; rfl
  refine run_trans (run_one hfirst) (run_one ?_)
  rw [step_fedWith_cons (s := ({ s with rxEsc := true } : State).later 1) x ws htaken]
  refine (exec_escaped_substitute (s := (({ s with rxEsc := true } : State).later 2).fedWith ws) htaken hx).trans ?_
  rw [← h, ← hsame]
  rfl

/-- Inside a frame, the wire form of a byte brings that byte (R93, R94, R128). -/
theorem run_stuff {s t : State} {b : Byte} (ws : List Byte) (hwf : s.cfg.wf = true) (ht : s.rxTakes .plain = true)
    (h : acceptByte b ((s.later (stuff s.cfg b).length).fedWith ws) = .next t) :
    core.run (stuff s.cfg b).length (s.fedWith (stuff s.cfg b ++ ws)) = .next t := by
  rcases stuff_cases s.cfg b with ⟨rfl, hb⟩ | ⟨-, rfl, hb⟩ | ⟨-, hne, hb⟩ <;> rw [hb] at h ⊢
  · exact run_escapePair ws ht (unstuff_subSync _) h
  · exact run_escapePair ws ht (unstuff_subEsc hwf) h
  · refine run_one ((step_fedWith_cons b ws ht).trans ?_)
    exact (exec_plain_literal (s := (s.later 1).fedWith ws) ht hne).trans h

/-! ## Reading logical bytes -/

/-- Nothing hinders `s` from reading unescaped bytes once it is inside a frame: R7 holds, no fatal state, no STOP, no escape
pending. -/
def State.unhindered (s : State) : Prop := s.cfg.wf = true ∧ s.fatal = false ∧ s.stopReq = false ∧ s.rxEsc = false

/-- Fed the wire form of the logical bytes `bs`, whatever quiet steps `s` has behind it, the receiver comes to `t` with every byte
taken and no event on a port. -/
def State.readsTo (s : State) (bs : List Byte) (t : State) : Prop :=
  ∀ m, core.run (stuffAll s.cfg bs).length ((s.later m).fedWith (stuffAll s.cfg bs)) =
    .next (t.later (m + (stuffAll s.cfg bs).length))

theorem readsTo_nil (s : State) : s.readsTo [] s := fun _ => rfl

/-- A rule that raises no event neither reads nor writes the ports, the step count and what is still to come (R130 to R137). -/
theorem acceptByte_fedWith {s u : State} {b : Byte} (hg : s.unhindered) (hr : s.rxState.isAccum = true)
    (h : acceptByte b s = .next u) (hev : u.rxEvents = s.rxEvents) (n : Nat) (ws : List Byte) :
    acceptByte b ((s.later n).fedWith ws) = .next ((u.later n).fedWith ws) := by
  obtain ⟨-, hf, hq, -⟩ := hg
  rcases rxField_cases (s := { s with rxSum := s.rxSum + b }) hr hf hq h with
    ⟨hr, rfl⟩ | ⟨hr, rfl⟩ | ⟨hr, rfl⟩ | ⟨hr, rfl⟩ | ⟨hr, rfl⟩ | ⟨hr, hi, hl, rfl⟩ | ⟨hr, hi, hl, rfl⟩ | ⟨hr, -, rfl⟩ |
    ⟨hr, h0, hty, rfl⟩ | ⟨hr, -, -, rfl⟩ | ⟨hr, -, -, -, rfl⟩
  -- the three rules that raise an event contradict `hev`; the others write the same fields of both states
  all_goals simp_all [acceptByte, rxField, rxBodyByte, rxChecksumByte, dispatchFrame, execFtMsg, State.atDispatch, frameAbort,
    State.later, State.fedWith]

/-- Logical bytes are read one after the other. -/
theorem readsTo_cons {s u t : State} {b : Byte} {bs : List Byte} (hg : s.unhindered) (hr : s.rxState.isAccum = true)
    (ha : acceptByte b s = .next u) (hsame : u.cfg = s.cfg ∧ u.rxEvents = s.rxEvents) (h : u.readsTo bs t) :
    s.readsTo (b :: bs) t := by
  intro m
  obtain ⟨hwf, hf, hq, he⟩ := hg
  have ht : (s.later m).rxTakes .plain = true := rxTakes_plain_iff.2 ⟨hf, hq, hr, he⟩
  have hrest := h (m + (stuff s.cfg b).length)
  rw [hsame.1] at hrest
  rw [stuffAll_cons, List.length_append, ← Nat.add_assoc]
  refine run_trans (run_stuff (s := s.later m) _ hwf ht ?_) hrest
  rw [State.later_later]
  exact acceptByte_fedWith ⟨hwf, hf, hq, he⟩ hr ha hsame.2 _ _

/-! ## The fields of a frame -/

/-- A body's bytes put into a buffer from an index on (R135). -/
def Memory.writeFrom (m : Memory) (start : Nat) : List Byte → Memory
  | [] => m
  | b :: bs => Memory.writeFrom (Memory.write m start b) (start + 1) bs

theorem Memory.read_writeFrom_of_lt (m : Memory) {start a : Nat} (h : a < start) (bs : List Byte) :
    Memory.read (Memory.writeFrom m start bs) a = Memory.read m a := by
  induction bs generalizing m start with
  | nil => rfl
  | cons b bs ih => rw [Memory.writeFrom, ih _ (by omega), Memory.read_write_other _ _ (by omega)]

theorem Memory.read_writeFrom (m : Memory) (start : Nat) {bs : List Byte} {i : Nat} (h : i < bs.length) :
    Memory.read (Memory.writeFrom m start bs) (start + i) = bs[i]? := by
  induction bs generalizing m start i with
  | nil => cases h
  | cons b bs ih =>
    cases i with
    | zero => exact (Memory.read_writeFrom_of_lt _ start.lt_add_one bs).trans (Memory.read_write_same m start b)
    | succ i =>
      rw [Memory.writeFrom, show start + (i + 1) = start + 1 + i by omega, ih _ _ (Nat.lt_of_succ_lt_succ h)]
      rfl

/-- `s`, at `VER`, once it has read the header: at the first body byte (R130 to R134). -/
def State.headerTaken (s : State) (ver mod seq type len : Byte) : State :=
  { s with
    rxVer := ver, rxMod := mod, rxSeq := seq, rxType := type, rxLen := len, rxIdx := 0, rxState := .body
    rxSum := s.rxSum + ver + mod + seq + type + len }

theorem acceptByte_len {s : State} {b : Byte} (hr : s.rxState = .len) (hb : b ≠ 0) :
    acceptByte b s = .next { s with rxSum := s.rxSum + b, rxLen := b, rxIdx := 0, rxState := .body } := by
  have hb : ¬ b = 0#8 := hb
  simp only [acceptByte, rxField, hr, if_neg hb]

/-- The five header bytes are read into their registers (R130 to R134). -/
theorem readsTo_header {s t : State} {ver mod seq type len : Byte} {bs : List Byte} (hg : s.unhindered) (hr : s.rxState = .ver)
    (hlen : len ≠ 0) (h : (s.headerTaken ver mod seq type len).readsTo bs t) :
    s.readsTo (ver :: mod :: seq :: type :: len :: bs) t := by
  rw [show s = { s with rxState := .ver } by rw [← hr]]
  iterate 4 refine readsTo_cons hg rfl rfl ⟨rfl, rfl⟩ ?_
  exact readsTo_cons hg rfl (acceptByte_len rfl hlen) ⟨rfl, rfl⟩ h

/-- `s`, in `BODY`, once it has read the rest of the body: at the checksum (R135). -/
def State.bodyTaken (s : State) (bs : List Byte) : State :=
  { s with
    rxSum := s.rxSum + checksum bs, rxbuf := Memory.writeFrom s.rxbuf s.rxIdx.toNat bs, rxIdx := s.rxLen - 1, rxState := .cksum }

theorem acceptByte_body {s : State} (b : Byte) (hr : s.rxState = .body) (hi : s.rxIdx.toNat < s.cfg.rxbufSize)
    (hlast : s.rxIdx + 1 ≠ s.rxLen) :
    acceptByte b s = .next { s with
      rxSum := s.rxSum + b, rxbuf := Memory.write s.rxbuf s.rxIdx.toNat b, rxIdx := s.rxIdx + 1 } := by
  simp only [acceptByte, rxField, hr, rxBodyByte, if_pos hi, if_neg hlast]

theorem acceptByte_lastBody {s : State} (b : Byte) (hr : s.rxState = .body) (hi : s.rxIdx.toNat < s.cfg.rxbufSize)
    (hlast : s.rxIdx + 1 = s.rxLen) : acceptByte b s = .next (s.bodyTaken [b]) := by
  simp [acceptByte, rxField, hr, rxBodyByte, if_pos hi, State.bodyTaken, ← hlast, Memory.writeFrom]

theorem toNat_add_one_of_lt {x y : Byte} (h : x.toNat < y.toNat) : (x + 1).toNat = x.toNat + 1 := by bv_omega

/-- The bytes of the body are read into RXBUF, the last of them at the length the header gave (R135). -/
theorem readsTo_body {s t : State} {bs rest : List Byte} (hg : s.unhindered) (hr : s.rxState = .body) (hne : bs ≠ [])
    (hlen : s.rxIdx.toNat + bs.length = s.rxLen.toNat) (hbuf : s.rxLen.toNat ≤ s.cfg.rxbufSize)
    (h : (s.bodyTaken bs).readsTo rest t) : s.readsTo (bs ++ rest) t := by
  have hin : s.rxState.isAccum = true := by rw [hr]; rfl
  induction bs generalizing s with
  | nil => exact absurd rfl hne
  | cons b bs ih =>
    rw [List.length_cons] at hlen
    have hsucc : (s.rxIdx + 1).toNat = s.rxIdx.toNat + 1 := toNat_add_one_of_lt (y := s.rxLen) (by omega)
    have hi : s.rxIdx.toNat < s.cfg.rxbufSize := by omega
    cases bs with
    | nil =>
      have hlast : s.rxIdx + 1 = s.rxLen := BitVec.eq_of_toNat_eq (hsucc.trans hlen)
      exact readsTo_cons hg hin (acceptByte_lastBody b hr hi hlast) ⟨rfl, rfl⟩ h
    | cons b' bs =>
      have hnext : (s.rxIdx + 1).toNat + (b' :: bs).length = s.rxLen.toNat := by omega
      have hlast : s.rxIdx + 1 ≠ s.rxLen := fun he => by
        rw [he, List.length_cons] at hnext; omega
      refine readsTo_cons hg hin (acceptByte_body b hr hi hlast) ⟨rfl, rfl⟩ ?_
      refine ih hg hr (List.cons_ne_nil _ _) hnext hbuf ?_ hin
      simpa only [State.bodyTaken, hsucc, checksum_cons, BitVec.add_assoc, Memory.writeFrom] using h

/-- The checksum byte of a Message whose sum comes to 0 leads to `ACK_WAIT` with the Ack requested (R136, R137). -/
theorem acceptByte_cksum_message {s : State} {k : Byte} (hg : s.unhindered) (hr : s.rxState = .cksum) (h0 : s.rxSum + k = 0)
    (hty : s.rxType = s.cfg.typeMsg) :
    acceptByte k s = .next { s with rxSum := 0, rxState := .ackWait, ackReq := true } := by
  obtain ⟨-, hf, hq, -⟩ := hg
  simp [acceptByte, rxField, rxChecksumByte, dispatchFrame, execFtMsg, State.atDispatch, hr, h0, hty, hf, hq]

/-! ## A whole Message frame -/

/-- The body of a Message, opcode first (R74, R51). -/
def messageBody (opcode : Opcode) (payload : List Byte) : List Byte := opcodeHigh opcode :: opcodeLow opcode :: payload

theorem length_messageBody (opcode : Opcode) (payload : List Byte) : (messageBody opcode payload).length = 2 + payload.length :=
  Nat.add_comm payload.length 2

theorem toNat_ofNat_byte {n : Nat} (h : n ≤ 255) : (BitVec.ofNat 8 n).toNat = n := by
  rw [BitVec.toNat_ofNat]
  exact Nat.mod_eq_of_lt (Nat.lt_succ_of_le h)

theorem toNat_ofNat_length_messageBody (opcode : Opcode) {payload : List Byte} (hp : payload.length ≤ 253) :
    (BitVec.ofNat 8 (messageBody opcode payload).length).toNat = 2 + payload.length := by
  rw [length_messageBody, toNat_ofNat_byte (by omega)]

/-- The payload stands behind the two opcode bytes. -/
theorem getElem?_messageBody (opcode : Opcode) (payload : List Byte) (i : Nat) :
    (messageBody opcode payload)[2 + i]? = payload[i]? := by
  rw [Nat.add_comm]
  rfl

/-- What follows the first byte of a Message frame: the header, the body and the checksum byte `k` (R96). -/
def messageTail (c : Config) (seq : Byte) (body : List Byte) (k : Byte) : List Byte :=
  c.version :: c.moduleId :: seq :: c.typeMsg :: BitVec.ofNat 8 body.length :: (body ++ [k])

theorem frameMsg_eq_cons (c : Config) (seq : Byte) (opcode : Opcode) (payload : List Byte) :
    ∃ k, frameMsg c seq opcode payload = c.sync :: messageTail c seq (messageBody opcode payload) k := by
  refine ⟨cks (messageHead c seq opcode payload), ?_⟩
  rw [messageTail, length_messageBody]
  rfl

/-- `s`, hunting, once it has read a Message frame with this number and body: waiting for its Ack (R137). -/
def State.messageTaken (s : State) (seq : Byte) (body : List Byte) : State :=
  { s with
    rxState := .ackWait, rxEsc := false, rxSum := 0, rxVer := s.cfg.version, rxMod := s.cfg.moduleId, rxSeq := seq
    rxType := s.cfg.typeMsg, rxLen := BitVec.ofNat 8 body.length, rxIdx := BitVec.ofNat 8 body.length - 1
    rxbuf := Memory.writeFrom s.rxbuf 0 body, ackReq := true }

/-- After `SYNC`, the rest of a Message frame whose sum is 0 is read field by field. -/
theorem readsTo_messageTail {s : State} {seq k : Byte} {body : List Byte} (hg : s.unhindered) (hr : s.rxState = .ver)
    (hpos : 0 < body.length) (hmax : body.length ≤ 255) (hbuf : 255 ≤ s.cfg.maxBody)
    (hsum : s.rxSum + checksum (messageTail s.cfg seq body k) = 0) :
    s.readsTo (messageTail s.cfg seq body k) (s.messageTaken seq body) := by
  have hbyte := toNat_ofNat_byte hmax
  have hlen0 : BitVec.ofNat 8 body.length ≠ 0 := fun h => by
    rw [h] at hbyte
    exact Nat.ne_of_lt hpos hbyte
  have hresidual : s.rxSum + s.cfg.version + s.cfg.moduleId + seq + s.cfg.typeMsg + BitVec.ofNat 8 body.length + checksum body + k
      = 0 := by
    simpa [messageTail, checksum_append, BitVec.add_assoc] using hsum
  refine readsTo_header hg hr hlen0 (readsTo_body hg rfl (List.ne_nil_of_length_pos hpos) ?_ ?_ ?_)
  · exact (Nat.zero_add _).trans hbyte.symm
  · exact hbyte.trans_le (hmax.trans hbuf)
  · obtain ⟨-, -, -, hesc⟩ := id hg
    refine readsTo_cons hg rfl (acceptByte_cksum_message hg rfl hresidual rfl) ⟨rfl, rfl⟩ ?_
    rw [State.messageTaken, ← hesc]
    exact readsTo_nil _

/-- Fed the wire bytes of a Message frame, a hunting receiver takes the frame and waits for its Ack (R100). -/
theorem run_wire_frameMsg {s : State} {ws : List Byte} {seq : Byte} {opcode : Opcode} {payload : List Byte}
    (hwf : s.cfg.wf = true) (hbuf : 255 ≤ s.cfg.maxBody) (hp : payload.length ≤ 253) (ht : s.rxTakes .hunt = true)
    (hws : ws = wire s.cfg (frameMsg s.cfg seq opcode payload)) :
    core.run ws.length (s.fedWith ws) = .next ((s.messageTaken seq (messageBody opcode payload)).later ws.length) := by
  obtain ⟨hf, hq, -⟩ := rxTakes_hunt_iff.1 ht
  obtain ⟨k, hframe⟩ := frameMsg_eq_cons s.cfg seq opcode payload
  have hsum := checksum_frameMsg s.cfg seq opcode payload
  have hlen := length_messageBody opcode payload
  rw [hframe] at hsum hws
  subst hws
  have hsync := (step_fedWith_cons s.cfg.sync (stuffAll s.cfg (messageTail s.cfg seq (messageBody opcode payload) k)) ht).trans
    (exec_hunt_sync (s := (s.later 1).fedWith _) ht)
  have hread := readsTo_messageTail (s := { s with rxSum := s.cfg.sync, rxEsc := false, rxState := .ver }) ⟨hwf, hf, hq, rfl⟩ rfl
    (by omega) (by omega) hbuf hsum
  rw [wire_cons, List.length_cons, run_succ hsync, Nat.add_comm]
  exact hread 1

theorem read_messageTaken (s : State) (seq : Byte) {body : List Byte} {i : Nat} (hi : i < body.length) :
    Memory.read (s.messageTaken seq body).rxbuf i = body[i]? := by
  have h := Memory.read_writeFrom s.rxbuf 0 hi
  rwa [Nat.zero_add] at h

/-- Settles O59: the run over the frame's wire bytes ends in the state that has taken the Message. -/
theorem receiverAcceptsWireFrame : Obligations.ReceiverAcceptsWireFrame := by
  intro s seq opcode payload hwf hbuf hp hf hq hr ws
  have hlen := length_messageBody opcode payload
  refine ⟨_, run_wire_frameMsg hwf hbuf hp (rxTakes_hunt_iff.2 ⟨hf, hq, hr⟩) rfl, rfl, rfl, rfl, rfl, rfl, rfl,
    toNat_ofNat_length_messageBody opcode hp, ?_, ?_, fun i hi => ?_, rfl, rfl, rfl⟩
  · exact read_messageTaken s seq (by omega)
  · exact read_messageTaken s seq (by omega)
  · rw [← getElem?_messageBody opcode]
    exact read_messageTaken s seq (by omega)

end Sys2Proof.Machine

/-! PROOFS. From the Message taken to its delivery (R100): the turns of the Ack with the link accepting (R109, R112, R113), the step
that leaves `ACK_WAIT` (R140), and what the host then reads (R41, R163). -/

namespace Sys2Proof.Machine

/-! ## The turns of an Ack -/

theorem step_tx {s : State} {ready : Bool} {turns : List Turn} (h : s.sched = .tx ready :: turns) :
    step s = txStep ready { beginStep s with sched := turns } := step_cons h

theorem txStep_loadAck {s : State} (ready : Bool) (hf : s.fatal = false) (hk : s.txKind = .none) (ha : s.ackReq = true) :
    txStep ready s = .next (loadAck s) := by
  simp [txStep, txLoad, hf, hk, ha]

theorem txStep_emitAck {s : State} (ready : Bool) {b : Byte} {rest : List Byte} (hf : s.fatal = false) (hk : s.txKind = .ack)
    (hr : s.txRem = b :: rest) : txStep ready s = .next (txEmit ready b rest s) := by
  simp [txStep, hf, hk, hr]

theorem txStep_completeAck {s : State} (ready : Bool) (hf : s.fatal = false) (hk : s.txKind = .ack) (hr : s.txRem = []) :
    txStep ready s = .next (completeAck s) := by
  simp [txStep, hf, hk, hr]

/-- `s` with `bs` still to hand over and, before `turns`, the TX turns that hand them over and complete the frame. -/
def State.emitting (s : State) (bs : List Byte) (turns : List Turn) : State :=
  { s with txRem := bs, sched := List.replicate (bs.length + 1) (.tx true) ++ turns }

/-- `s` once its Ack has been handed over, `ack`, in `n` turns, and completed (R112, R113). -/
def State.ackSent (s : State) (ack : List Byte) (n : Nat) (turns : List Turn) : State :=
  completeAck { s.later n with txRem := [], linkOut := s.linkOut ++ ack, sched := turns }

/-- Loading and sending an Ack leaves the receiver where it waits, with the frame's length. -/
theorem ackSent_loadAck_frame (s : State) (ack : List Byte) (n : Nat) (turns : List Turn) :
    ((loadAck s).ackSent ack n turns).fatal = s.fatal ∧ ((loadAck s).ackSent ack n turns).rxState = s.rxState ∧
    ((loadAck s).ackSent ack n turns).rxLen = s.rxLen := ⟨rfl, rfl, rfl⟩

/-- An accepting link takes the bytes of an Ack one a turn, and the turn after the last completes it. -/
theorem run_emitting {s : State} (hf : s.fatal = false) (hk : s.txKind = .ack) (bs : List Byte) (turns : List Turn) :
    core.run (bs.length + 1) (s.emitting bs turns) = .next (s.ackSent bs (bs.length + 1) turns) := by
  induction bs generalizing s with
  | nil =>
    rw [State.ackSent, List.append_nil]
    exact run_one ((step_tx rfl).trans (txStep_completeAck true hf hk rfl))
  | cons b bs ih =>
    have hemit : step (s.emitting (b :: bs) turns) = .next ((txEmit true b bs (s.later 1)).emitting bs turns) :=
      (step_tx rfl).trans (txStep_emitAck true hf hk rfl)
    refine (run_succ hemit).trans ((ih (s := txEmit true b bs (s.later 1)) hf hk).trans ?_)
    simp [State.ackSent, State.later, txEmit, Nat.add_assoc, Nat.add_comm 1]

/-- The turns of a requested Ack: LOAD, one for each of its wire bytes, and COMPLETE (R109, R112, R113). -/
theorem run_ack {s : State} {ack : List Byte} {turns : List Turn} (hf : s.fatal = false) (hk : s.txKind = .none)
    (ha : s.ackReq = true) (hack : ack = wire s.cfg (frameAck s.cfg s.rxSeq))
    (hs : s.sched = List.replicate (ack.length + 2) (.tx true) ++ turns) :
    core.run (ack.length + 2) s = .next ((loadAck s).ackSent ack (ack.length + 2) turns) := by
  subst hack
  have hload : step s = .next ((loadAck (s.later 1)).emitting (wire s.cfg (frameAck s.cfg s.rxSeq)) turns) :=
    (step_tx hs).trans (txStep_loadAck true hf hk ha)
  refine (run_succ hload).trans ((run_emitting (s := loadAck (s.later 1)) hf rfl _ turns).trans ?_)
  simp [State.ackSent, State.later, loadAck, Nat.add_assoc, Nat.add_comm 1]

/-! ## The delivery -/

/-- `s`, in `ACK_WAIT`, once the frame is offered to the host (R140). -/
def State.delivered (s : State) : State := { raiseRx .rxMsgReady s.rxSeq s with rxState := .deliver }

/-- An RX turn after the Ack is out delivers a frame that has an opcode (R140). -/
theorem step_ackWait_delivers {s : State} {offered : Bool} {turns : List Turn} (hs : s.sched = .rx offered :: turns)
    (hf : s.fatal = false) (hr : s.rxState = .ackWait) (ha : s.ackReq = false) (hlen : 2 ≤ s.rxLen.toNat) :
    step s = .next (State.delivered { beginStep s with sched := turns }) := by
  rw [step_cons hs]
  simp [turn, rxTurn, State.rxContext, RxState.isAccum, rxAckDone, State.delivered, hf, hr, ha, hlen]

/-- `s`, in `ACK_WAIT`, once its Ack has gone out, `ack`, and the frame is offered to the host. -/
def State.acknowledged (s : State) (ack : List Byte) (turns : List Turn) : State :=
  State.delivered { beginStep ((loadAck s).ackSent ack (ack.length + 2) (.rx false :: turns)) with sched := turns }

/-- From the Ack request to the delivery (R109, R112, R113, R140). -/
theorem run_acknowledged {s : State} {ack : List Byte} {turns : List Turn} (hf : s.fatal = false) (hk : s.txKind = .none)
    (ha : s.ackReq = true) (hr : s.rxState = .ackWait) (hlen : 2 ≤ s.rxLen.toNat)
    (hack : ack = wire s.cfg (frameAck s.cfg s.rxSeq))
    (hs : s.sched = List.replicate (ack.length + 2) (.tx true) ++ .rx false :: turns) :
    core.run (ack.length + 3) s = .next (s.acknowledged ack turns) := by
  obtain ⟨hfatal, hstate, hlength⟩ := ackSent_loadAck_frame s ack (ack.length + 2) (.rx false :: turns)
  have hdelivers := step_ackWait_delivers rfl (hfatal.trans hf) (hstate.trans hr) rfl (hlength ▸ hlen)
  have hrun := run_trans (run_ack hf hk ha hack hs) (run_one hdelivers)
  exact hrun

theorem opcodeHigh_append_opcodeLow (opcode : Opcode) : opcodeHigh opcode ++ opcodeLow opcode = opcode := by
  unfold opcodeHigh opcodeLow
  rw [BitVec.extractLsb'_append_extractLsb'_eq_extractLsb' (by rfl), BitVec.extractLsb'_eq_self]

theorem rxbufByte_of_read {s : State} {a v : Byte} (h : Memory.read s.rxbuf a.toNat = some v) : s.rxbufByte a = v := by
  rw [State.rxbufByte, h]
  rfl

/-- What the host reads of a Message's body in RXBUF (R41, R163). -/
theorem delivery_of_messageBody {s : State} {opcode : Opcode} {payload : List Byte} (hv : s.rxFrameValid = true)
    (hp : payload.length ≤ 253) (hlen : s.rxLen = BitVec.ofNat 8 (messageBody opcode payload).length)
    (hbuf : ∀ i < (messageBody opcode payload).length, Memory.read s.rxbuf i = (messageBody opcode payload)[i]?) :
    s.rxOpcode = opcode ∧ s.rxPlen.toNat = payload.length ∧
      ∀ i < payload.length, some (s.rxbRdata (BitVec.ofNat 8 (2 + i))) = payload[i]? := by
  obtain ⟨hop, hplen, -⟩ := outputs_of_valid hv
  have hbody := length_messageBody opcode payload
  have hbyte : s.rxLen.toNat = 2 + payload.length := hlen ▸ toNat_ofNat_length_messageBody opcode hp
  have h0 : s.rxbufByte 0 = opcodeHigh opcode := rxbufByte_of_read (hbuf 0 (by omega))
  have h1 : s.rxbufByte 1 = opcodeLow opcode := rxbufByte_of_read (hbuf 1 (by omega))
  refine ⟨by rw [hop, h0, h1, opcodeHigh_append_opcodeLow], by rw [hplen]; bv_omega, fun i hi => ?_⟩
  have hidx : (BitVec.ofNat 8 (2 + i)).toNat = 2 + i := toNat_ofNat_byte (by omega)
  have hread : Memory.read s.rxbuf (2 + i) = some payload[i] := by
    rw [hbuf (2 + i) (by omega), getElem?_messageBody, List.getElem?_eq_getElem hi]
  rw [rxbRdata_of_lt hv (by omega), rxbufByte_of_read (by rw [hidx, hread]), List.getElem?_eq_getElem hi]

/-- Settles O60: the run over the frame, then the turns of its Ack and the step that delivers it. -/
theorem sentMessageIsAcknowledgedAndDelivered : Obligations.SentMessageIsAcknowledgedAndDelivered := by
  intro s seq opcode payload turns hwf hbuf hp hf hq hr hk ws ack hs
  have htaken := run_wire_frameMsg hwf hbuf hp (rxTakes_hunt_iff.2 ⟨hf, hq, hr⟩) (rfl : ws = _)
  have hlen : 2 ≤ (BitVec.ofNat 8 (messageBody opcode payload).length).toNat :=
    toNat_ofNat_length_messageBody opcode hp ▸ Nat.le_add_right _ _
  have hout := run_acknowledged (s := (s.messageTaken seq (messageBody opcode payload)).later ws.length) (ack := ack) hf hk rfl rfl
    hlen rfl hs
  have hv : (((s.messageTaken seq (messageBody opcode payload)).later ws.length).acknowledged ack turns).rxFrameValid = true :=
    rxFrameValid_iff.2 ⟨hf, rfl⟩
  obtain ⟨-, -, hseq, -⟩ := outputs_of_valid hv
  obtain ⟨hop, hplen, hread⟩ := delivery_of_messageBody (opcode := opcode) hv hp rfl fun i hi => read_messageTaken s seq hi
  exact ⟨_, run_trans htaken hout, rfl, hv, hseq, hop, hplen, hread, rfl, rfl, rfl, rfl⟩

end Sys2Proof.Machine

/-! PROOFS. The TX framer (spec/41_tx_framer.md): the two forms of SEND, and a TX turn's LOAD, EMIT and COMPLETE. -/

namespace Sys2Proof.Machine

/-! ## SEND -/

/-- A SEND of either form is not ready, and not accepted, while a Message is queued or in flight (R43). -/
theorem send_waits_of_busy {s : State} (hf : s.fatal = false) (hb : s.txMsgBusy = true) :
    s.hcReady 3 = false ∧ s.sendAccepted = false := by
  refine ⟨hcReady_eq_false_iff.2 ⟨hf, rfl, hb⟩, ?_⟩
  simp [State.sendAccepted, hb]

theorem exec_send_accepted {s : State} {opcode : Opcode} {len : Byte} (ha : s.sendAccepted = true)
    (hl : len.toNat ≤ s.cfg.maxPayload) :
    exec (.send opcode len) s = .next { s with
      msgOpcode := opcode, msgLen := len, msgSeq := s.seqNext, seqNext := s.seqNext + 1, msgPending := true } := by
  simp [exec, execSend, ha, hl]

theorem exec_send_not_accepted {s : State} (opcode : Opcode) (len : Byte) (ha : s.sendAccepted = false) :
    exec (.send opcode len) s = .next s := by
  simp [exec, execSend, ha]

theorem exec_sendOversize_accepted {s : State} {len : Byte} (ha : s.sendAccepted = true) (hl : s.cfg.maxPayload < len.toNat) :
    exec (.sendOversize len) s = .next (raiseCtl .cmdRejectOversize len s) := by
  simp [exec, execSendOversize, ha, hl]

theorem exec_sendOversize_not_accepted {s : State} (len : Byte) (ha : s.sendAccepted = false) :
    exec (.sendOversize len) s = .next s := by
  simp [exec, execSendOversize, ha]

theorem stTxBusy_of_msgPending {s : State} (h : s.msgPending = true) : s.stTxBusy = true := by
  simp [State.stTxBusy, h]

/-- Settles O2: the guard holds exactly while no Message is queued or in flight. -/
theorem sendFillsSlotOrWaits : Obligations.SendFillsSlotOrWaits := by
  refine fun s opcode len hf hl => ⟨fun hb => ?_, fun hb => ?_⟩
  · exact ⟨_, exec_send_accepted (sendAccepted_iff.2 ⟨hf, hb⟩) hl, stTxBusy_of_msgPending rfl, rfl⟩
  · obtain ⟨hready, hacc⟩ := send_waits_of_busy hf hb
    exact ⟨hready, exec_send_not_accepted opcode len hacc⟩

/-- Settles O3: the same guard as the accepted form; the rejection is the event alone. -/
theorem oversizeSendIsRejected : Obligations.OversizeSendIsRejected := by
  refine fun s len hf hl => ⟨fun hb => ?_, fun hb => ?_⟩
  · exact exec_sendOversize_accepted (sendAccepted_iff.2 ⟨hf, hb⟩) hl
  · obtain ⟨hready, hacc⟩ := send_waits_of_busy hf hb
    exact ⟨hready, exec_sendOversize_not_accepted len hacc⟩

/-! ## LOAD -/

/-- A capture gives exactly the list that agrees with the buffer at each index. -/
theorem payloadFrom_eq_some_iff {m : Memory} {start n : Nat} {bs : List Byte} :
    payloadFrom m start n = some bs ↔ bs.length = n ∧ ∀ i < n, Memory.read m (start + i) = bs[i]? := by
  refine ⟨payloadFrom_spec, fun ⟨hlen, hread⟩ => ?_⟩
  cases hp : payloadFrom m start n with
  | none =>
    obtain ⟨i, hi, hnone⟩ := payloadFrom_eq_none.1 hp
    have hlt : i < bs.length := hlen ▸ hi
    exact absurd ((hread i hi).symm.trans hnone) (by simp [hlt])
  | some cs =>
    obtain ⟨hlen', hread'⟩ := payloadFrom_spec hp
    refine congrArg some (List.ext_getElem? fun i => ?_)
    by_cases hi : i < n
    · rw [← hread i hi, hread' i hi]
    · rw [List.getElem?_eq_none (by omega), List.getElem?_eq_none (by omega)]

theorem messagePayload_eq_some_iff {s : State} {payload : List Byte} :
    s.messagePayload = some payload ↔
      payload.length = s.msgLen.toNat ∧ ∀ i < s.msgLen.toNat, Memory.read s.txbuf i = payload[i]? := by
  simp only [State.messagePayload, payloadFrom_eq_some_iff, Nat.zero_add]

theorem messagePayload_eq_none_iff {s : State} :
    s.messagePayload = none ↔ ∃ i < s.msgLen.toNat, s.txbWritten i = false := by
  simp only [State.messagePayload, payloadFrom_eq_none, Nat.zero_add, State.txbWritten, Option.isSome_eq_false_iff,
    Option.isNone_iff_eq_none]

/-- An idle engine with no Ack requested loads the queued Message (R110, R111). -/
theorem txStep_loadMessage {s : State} (ready : Bool) (hf : s.fatal = false) (hk : s.txKind = .none) (ha : s.ackReq = false)
    (hm : s.msgPending = true) : txStep ready s = loadMessage s := by
  simp [txStep, txLoad, hf, hk, ha, hm]

theorem loadMessage_of_payload {s : State} {payload : List Byte} (hp : s.messagePayload = some payload) :
    loadMessage s = .next { s with
      txKind := .msg, txSeq := s.msgSeq, msgPending := false
      txRem := wire s.cfg (frameMsg s.cfg s.msgSeq s.msgOpcode payload) } := by
  simp only [loadMessage, hp]

theorem loadMessage_of_unwritten {s : State} (hp : s.messagePayload = none) : loadMessage s = .fault .unwrittenTxbuf := by
  simp only [loadMessage, hp]

/-- Settles O25: the Ack request decides; the payload is the capture of TXBUF. -/
theorem loadTakesAckBeforeMessage : Obligations.LoadTakesAckBeforeMessage := by
  refine fun s payload ready turns hs hf hk => ⟨fun ha => ?_, fun ha hm hlen hread => ?_⟩ <;> rw [step_tx hs]
  · exact txStep_loadAck (s := { beginStep s with sched := turns }) ready hf hk ha
  · rw [txStep_loadMessage (s := { beginStep s with sched := turns }) ready hf hk ha hm]
    exact loadMessage_of_payload (s := { beginStep s with sched := turns }) (messagePayload_eq_some_iff.2 ⟨hlen, hread⟩)

/-- Settles O26: the capture of a payload with an unwritten byte fails. -/
theorem unwrittenPayloadIsAFault : Obligations.UnwrittenPayloadIsAFault := by
  intro s i ready turns hs hf hk ha hm hi hw
  rw [step_tx hs, txStep_loadMessage (s := { beginStep s with sched := turns }) ready hf hk ha hm]
  exact loadMessage_of_unwritten (s := { beginStep s with sched := turns }) (messagePayload_eq_none_iff.2 ⟨i, hi, hw⟩)

/-! ## EMIT and COMPLETE -/

/-- While not fatal, the head of `tx_rem` is what the TX port offers (R37). -/
theorem txPort_offers_head {s : State} {b : Byte} {rest : List Byte} (hf : s.fatal = false) (hr : s.txRem = b :: rest) :
    s.txValid = true ∧ s.txData = b := by
  have hv : s.txValid = true := by simp [State.txValid, hf, hr]
  exact ⟨hv, by simp [State.txData, hv, hr]⟩

/-- EMIT is one rule for both kinds of frame (R112). -/
theorem txStep_emit {s : State} (ready : Bool) {b : Byte} {rest : List Byte} (hf : s.fatal = false) (hk : s.txKind ≠ .none)
    (hr : s.txRem = b :: rest) : txStep ready s = .next (txEmit ready b rest s) := by
  cases hkind : s.txKind with
  | none => exact absurd hkind hk
  | ack => exact txStep_emitAck ready hf hkind hr
  | msg => simp [txStep, hf, hkind, hr]

theorem txStep_completeMessage {s : State} (ready : Bool) (hf : s.fatal = false) (hk : s.txKind = .msg) (hr : s.txRem = []) :
    txStep ready s = .next (completeMessage s) := by
  simp [txStep, hf, hk, hr]

/-- Settles O27: what the port offers, then EMIT in the state whose turn has been taken off. -/
theorem emitHandsHeadToLink : Obligations.EmitHandsHeadToLink := by
  intro s b rest ready turns hs hf hk hr
  obtain ⟨hvalid, hdata⟩ := txPort_offers_head hf hr
  refine ⟨hvalid, hdata, ?_⟩
  rw [step_tx hs]
  exact txStep_emit (s := { beginStep s with sched := turns }) ready hf hk hr

/-- Settles O28: COMPLETE of each kind of frame. -/
theorem completeEndsTheFrame : Obligations.CompleteEndsTheFrame := by
  refine fun s ready turns hs hf hr => ⟨fun hk => ?_, fun hk => ?_⟩ <;> rw [step_tx hs]
  · exact txStep_completeAck (s := { beginStep s with sched := turns }) ready hf hk hr
  · exact txStep_completeMessage (s := { beginStep s with sched := turns }) ready hf hk hr

end Sys2Proof.Machine

/-! PROOFS. The rules of the RX deframer (R127 to R139): what each wire-byte row and each frame-type row does where its context is
taken. -/

namespace Sys2Proof.Machine

/-! ## The rule of each field -/

theorem rxField_ver {s : State} (b : Byte) (hr : s.rxState = .ver) :
    rxField b s = .next { s with rxVer := b, rxState := .mod } := by
  simp only [rxField, hr]

theorem rxField_mod {s : State} (b : Byte) (hr : s.rxState = .mod) :
    rxField b s = .next { s with rxMod := b, rxState := .seq } := by
  simp only [rxField, hr]

theorem rxField_seq {s : State} (b : Byte) (hr : s.rxState = .seq) :
    rxField b s = .next { s with rxSeq := b, rxState := .type } := by
  simp only [rxField, hr]

theorem rxField_type {s : State} (b : Byte) (hr : s.rxState = .type) :
    rxField b s = .next { s with rxType := b, rxState := .len } := by
  simp only [rxField, hr]

theorem rxField_len {s : State} (b : Byte) (hr : s.rxState = .len) :
    rxField b s = .next { s with rxLen := b, rxIdx := 0, rxState := if b = 0#8 then .cksum else .body } := by
  simp only [rxField, hr]

/-- A body byte inside RXBUF, whether it is the last or not (R135). -/
theorem rxField_body {s : State} (b : Byte) (hr : s.rxState = .body) (hi : s.rxIdx.toNat < s.cfg.rxbufSize) :
    rxField b s = .next { s with
      rxbuf := Memory.write s.rxbuf s.rxIdx.toNat b
      rxState := if s.rxIdx + 1 = s.rxLen then .cksum else .body
      rxIdx := if s.rxIdx + 1 = s.rxLen then s.rxIdx else s.rxIdx + 1 } := by
  simp only [rxField, hr, rxBodyByte, if_pos hi]
  by_cases hlast : s.rxIdx + 1 = s.rxLen
  · simp only [if_pos hlast]
  · simp only [if_neg hlast, ← hr]

theorem rxField_cksum_of_ne {s : State} (b : Byte) (hr : s.rxState = .cksum) (h0 : s.rxSum ≠ 0#8) :
    rxField b s = .next (frameAbort .rxDropChecksum s.rxSum s) := by
  simp only [rxField, hr, rxChecksumByte, if_neg h0]

/-- Dispatch is the row the decoder names for the frame's type (R84, R136). -/
theorem dispatchFrame_eq_exec (s : State) : dispatchFrame s = exec (decodeFrameType s.cfg s.rxType) s := by
  unfold dispatchFrame decodeFrameType
  split <;> [rfl; split <;> rfl]

theorem rxField_cksum_of_eq {s : State} (b : Byte) (hr : s.rxState = .cksum) (h0 : s.rxSum = 0#8) :
    rxField b s = exec (decodeFrameType s.cfg s.rxType) s := by
  rw [← dispatchFrame_eq_exec]
  simp only [rxField, hr, rxChecksumByte, if_pos h0]

/-- A row that brings a logical byte is the rule of its field, the sum having taken the byte in (R128). -/
theorem exec_eq_rxField_of_bringsByte {s : State} {i : Instr} {b : Byte} (h : bringsByte s i b) :
    exec i s = rxField b { s with rxEsc := false, rxSum := s.rxSum + b } := by
  obtain ⟨-, -, -, he⟩ := exec_of_bringsByte h
  exact he

/-- Settles O10: the guard holds, and the decoder's choice is the one stated. -/
theorem huntStartsFrameOnSyncOnly : Obligations.HuntStartsFrameOnSyncOnly :=
  fun _ _ ht => ⟨if_pos ht, rfl, rfl⟩

/-- Settles O11: the rules of the four header fields. -/
theorem headerBytesAreStored : Obligations.HeaderBytesAreStored := by
  intro s i b hb
  have he := exec_eq_rxField_of_bringsByte hb
  exact ⟨fun hr => he.trans (rxField_ver b hr), fun hr => he.trans (rxField_mod b hr), fun hr => he.trans (rxField_seq b hr),
    fun hr => he.trans (rxField_type b hr)⟩

/-- Settles O12: the rule of the length field. -/
theorem lengthByteLeadsToBodyOrChecksum : Obligations.LengthByteLeadsToBodyOrChecksum :=
  fun _ _ b hb hr => (exec_eq_rxField_of_bringsByte hb).trans (rxField_len b hr)

/-- Settles O13: the rule of the body, and what a buffer reads after a write. -/
theorem bodyByteGoesToRxbuf : Obligations.BodyByteGoesToRxbuf :=
  fun s _ b hb hr hi => ⟨_, (exec_eq_rxField_of_bringsByte hb).trans (rxField_body b hr hi),
    fun a => Memory.read_write s.rxbuf s.rxIdx.toNat a b, rfl⟩

/-- Settles O14: the residual is the sum once the byte is taken in. -/
theorem checksumByteDropsOrDispatches : Obligations.ChecksumByteDropsOrDispatches := by
  refine fun s i b hb hr => ⟨fun hne => ?_, fun h0 => ?_⟩ <;> rw [exec_eq_rxField_of_bringsByte hb]
  · exact rxField_cksum_of_ne b hr hne
  · rw [h0]
    exact rxField_cksum_of_eq b hr rfl

/-! ## Escapes and frame types -/

theorem exec_rxEscBad {s : State} (w : Byte) (ht : s.rxTakes .escaped = true) :
    exec (.rxEscBad w) s = .next (badEscape w { s with rxEsc := false }) := if_pos ht

theorem badEscape_recoverable {s : State} (w : Byte) (he : s.cfg.escapeErrorFatal = false) :
    badEscape w s = frameAbort .rxDropBadEscape w s := by
  simp [badEscape, he]

theorem badEscape_fatal {s : State} (w : Byte) (he : s.cfg.escapeErrorFatal = true) :
    badEscape w s = raiseFatal .fatalBadEscape (raiseRx .fatalBadEscape w s) := if_pos he

/-- Settles O15: `ESCAPE_ERROR_FATAL` decides between the two forms of an invalid escape. -/
theorem escapeArmsAndBadSubstituteEndsFrame : Obligations.EscapeArmsAndBadSubstituteEndsFrame := by
  refine ⟨fun s ht => if_pos ht, fun s w ht _ _ => ⟨fun he => ?_, fun he => ?_⟩⟩ <;> rw [exec_rxEscBad w ht]
  · exact congrArg Host.Outcome.next (badEscape_recoverable (s := { s with rxEsc := false }) w he)
  · exact congrArg Host.Outcome.next (badEscape_fatal (s := { s with rxEsc := false }) w he)

/-- The guard of a frame-type row, where a frame of that type is dispatched. -/
theorem dispatched_of_type {s : State} {ty : Byte} (hd : s.atDispatch = true) (ht : s.rxType = ty) :
    (s.atDispatch && s.rxType == ty) = true := by
  simp [hd, ht]

/-- Settles O17: each row's guard holds for the frame's own type. -/
theorem validFrameIsDispatchedByType : Obligations.ValidFrameIsDispatchedByType := by
  refine fun s ty hd ht => ⟨fun hm => ?_, fun ha => ?_, fun _ _ => ?_⟩
  · refine ⟨_, if_pos (dispatched_of_type hd (ht.trans hm)), ?_, rfl⟩
    simp [State.rxReady, RxState.isByteState, RxState.isAccum]
  · exact if_pos (dispatched_of_type hd (ht.trans ha))
  · exact if_pos (dispatched_of_type hd ht)

end Sys2Proof.Machine

/-! PROOFS. The RX deframer's steps that take no byte: STOP taking effect (R126), a timeout (R143, R144) and leaving `ACK_WAIT` (R140,
R141). -/

namespace Sys2Proof.Machine

theorem rxContext_of_isByteState {s : State} (hr : s.rxState.isByteState = true) : ∃ ctx, s.rxContext = some ctx := by
  rcases isByteState_iff.1 hr with hr | hr
  · exact ⟨.hunt, rxContext_eq_some.2 (.inl ⟨rfl, hr⟩)⟩
  · cases he : s.rxEsc with
    | false => exact ⟨.plain, rxContext_eq_some.2 (.inr (.inl ⟨rfl, hr, he⟩))⟩
    | true => exact ⟨.escaped, rxContext_eq_some.2 (.inr (.inr ⟨rfl, hr, he⟩))⟩

theorem rxContext_of_not_isByteState {s : State} (hr : s.rxState.isByteState = false) : s.rxContext = none :=
  Option.eq_none_iff_forall_ne_some.2 fun ctx hc => by
    rcases rxContext_eq_some.1 hc with ⟨-, h⟩ | ⟨-, h, -⟩ | ⟨-, h, -⟩ <;> simp [RxState.isByteState, h] at hr

/-! ## The turns -/

/-- In the fatal state no turn of the receiver does anything (R125, R182). -/
theorem rxTurn_of_fatal {s : State} (offered : Bool) (hf : s.fatal = true) : rxTurn offered s = .done (.next s) := if_pos hf

/-- STOP goes before whatever the link offers (R125, R126). -/
theorem rxTurn_of_stop {s : State} (offered : Bool) (hf : s.fatal = false) (hr : s.rxState.isByteState = true)
    (hq : s.stopReq = true) : rxTurn offered s = .done (.next (rxStop s)) := by
  obtain ⟨ctx, hc⟩ := rxContext_of_isByteState hr
  simp [rxTurn, hf, hc, hq]

theorem rxTurn_of_timeout {s : State} {rest : List LinkItem} (hf : s.fatal = false) (hr : s.rxState.isByteState = true)
    (hq : s.stopReq = false) (hl : s.linkq = .timeout :: rest) :
    rxTurn true s = .done (.next (rxTimeout { s with linkq := rest })) := by
  obtain ⟨ctx, hc⟩ := rxContext_of_isByteState hr
  simp [rxTurn, hf, hc, hq, rxPort, hl]

theorem rxTurn_of_ackDone {s : State} (offered : Bool) (hf : s.fatal = false) (hr : s.rxState = .ackWait)
    (ha : s.ackReq = false) : rxTurn offered s = .done (.next (rxAckDone s)) := by
  have hc : s.rxContext = none := rxContext_of_not_isByteState (by rw [hr]; rfl)
  simp [rxTurn, hf, hc, hr, ha]

/-- A receiver that takes no bytes and waits for no finished Ack has no step (R125). -/
theorem rxTurn_of_resting {s : State} (offered : Bool) (hr : s.rxState.isByteState = false)
    (hw : s.rxState = .ackWait → s.ackReq = true) : rxTurn offered s = .done (.next s) := by
  have hno : (s.rxState == .ackWait && !s.ackReq) = false := by simpa [imp_iff_not_or] using hw
  simp [rxTurn, rxContext_of_not_isByteState hr, hno]

/-! ## What they do -/

theorem rxStop_eq (s : State) :
    rxStop s = { s with
      rxState := .stopped, rxEsc := false, stopReq := false
      rxEv := if s.rxState.isAccum then some ⟨.rxAbortStop, s.rxState.arg⟩ else s.rxEv
      rxEvents := if s.rxState.isAccum then s.rxEvents ++ [⟨.rxAbortStop, s.rxState.arg⟩] else s.rxEvents } := by
  cases ha : s.rxState.isAccum <;> simp [rxStop, ha]

theorem rxTimeout_inFrame {s : State} (hr : s.rxState.isAccum = true) :
    rxTimeout s = frameAbort .rxDropShortFrame s.rxState.arg s := if_pos hr

theorem rxAckDone_keeps_running (s : State) : (rxAckDone s).stopReq = s.stopReq ∧ (rxAckDone s).rxState ≠ .stopped := by
  unfold rxAckDone
  split <;> exact ⟨rfl, nofun⟩

/-- Settles O21: STOP where bytes are taken; elsewhere the turn is none, or the one that leaves `ACK_WAIT`. -/
theorem stopTakesEffectAtByteBoundary : Obligations.StopTakesEffectAtByteBoundary := by
  intro s offered turns hs hf hq
  rw [step_cons hs]
  refine ⟨fun hr => ?_, fun hr => ?_⟩
  · refine (congrArg runAction (rxTurn_of_stop (s := { beginStep s with sched := turns }) offered hf hr hq)).trans ?_
    rw [rxStop_eq]
    rfl
  · by_cases hdone : s.rxState = .ackWait ∧ s.ackReq = false
    · obtain ⟨hwait, ha⟩ := hdone
      refine ⟨_, congrArg runAction (rxTurn_of_ackDone (s := { beginStep s with sched := turns }) offered hf hwait ha), ?_⟩
      obtain ⟨hkeep, hrun⟩ := rxAckDone_keeps_running { beginStep s with sched := turns }
      exact ⟨hkeep.trans hq, hrun⟩
    · have hbyte : s.rxState.isByteState = false := by rcases hr with hr | hr <;> rw [hr] <;> rfl
      have hwait : s.rxState = .ackWait → s.ackReq = true := by simpa using hdone
      refine ⟨_, congrArg runAction (rxTurn_of_resting (s := { beginStep s with sched := turns }) offered hbyte hwait), hq, ?_⟩
      rcases hr with hr | hr <;> simp [hr]

/-- Settles O22: the timeout is taken, and only inside a frame it aborts one. -/
theorem timeoutDropsOnlyAPartialFrame : Obligations.TimeoutDropsOnlyAPartialFrame := by
  intro s items turns hs hl hf hq
  have htaken : s.rxState.isByteState = true →
      step s = .next (rxTimeout { beginStep s with sched := turns, linkq := items }) := fun hr =>
    (step_cons hs).trans (congrArg runAction (rxTurn_of_timeout (s := { beginStep s with sched := turns }) hf hr hq hl))
  refine ⟨fun hr => ?_, fun hr => ?_⟩ <;> rw [htaken (isByteState_iff.2 (by simp [hr]))]
  · simp [rxTimeout, hr, RxState.isAccum]
  · rw [rxTimeout_inFrame (s := { beginStep s with sched := turns, linkq := items }) hr]
    rfl

/-- Settles O23: the Ack request decides whether the receiver waits, and the length what it does then. -/
theorem ackWaitEndsInDeliveryOrShortDrop : Obligations.AckWaitEndsInDeliveryOrShortDrop := by
  intro s offered turns hs hf hr
  refine ⟨fun ha => ?_, fun ha hlen => step_ackWait_delivers hs hf hr ha hlen, fun ha hlen => ?_⟩
  · rw [step_cons hs]
    exact congrArg runAction
      (rxTurn_of_resting (s := { beginStep s with sched := turns }) offered (by rw [beginStep_rxState, hr]; rfl) fun _ => ha)
  · have hshort : ¬ 2 ≤ s.rxLen.toNat := Nat.not_le.2 hlen
    rw [step_cons hs]
    refine (congrArg runAction (rxTurn_of_ackDone (s := { beginStep s with sched := turns }) offered hf hr ha)).trans ?_
    exact congrArg Host.Outcome.next (if_neg hshort)

end Sys2Proof.Machine

/-! PROOFS. What an RX turn leaves of the rest of the block (R150), and what the other agents' turns leave of the receiver's events, the
fatal flag and the script (R148, R181). -/

namespace Sys2Proof.Machine

/-! ## What an RX turn leaves -/

/-- An RX turn writes the receiver, the STOP request and what the link holds, and nothing else. -/
theorem rxTurn_writes {offered : Bool} {s t : State} (h : runAction (rxTurn offered s) = .next t) :
    ∃ q items, t = { s with stopReq := q, linkq := items }.withReceiverOf t := by
  cases hf : s.fatal with
  | true => rw [rxTurn_of_fatal offered hf] at h; cases h; exact ⟨_, _, rfl⟩
  | false =>
    rcases rxTurn_cases hf offered with
      ⟨-, -, he⟩ | ⟨ctx, w, rest, -, -, -, he⟩ | ⟨rest, -, -, -, -, he⟩ | ⟨-, -, he⟩ | ⟨-, -, -, he⟩ <;> rw [he] at h
    · cases h
      refine ⟨false, s.linkq, ?_⟩
      rw [rxStop_eq]
      rfl
    · obtain ⟨⟨-, hrest, -⟩, -⟩ := exec_wireByteRow_frame (decodeRxByte_mem s.cfg ctx w) h
      exact ⟨_, _, hrest⟩
    · cases h
      refine ⟨s.stopReq, rest, ?_⟩
      unfold rxTimeout
      split <;> rfl
    · cases h
      refine ⟨s.stopReq, s.linkq, ?_⟩
      unfold rxAckDone
      split <;> rfl
    · cases h; exact ⟨_, _, rfl⟩

/-- Settles O56: the transmitter, TXBUF and the other records are no field that an RX turn writes. -/
theorem receiverNeverTouchesTransmitter : Obligations.ReceiverNeverTouchesTransmitter := by
  intro s t offered turns hs h
  rw [step_cons hs] at h
  obtain ⟨q, items, ht⟩ := rxTurn_writes h
  obtain ⟨hbuf, htx, -, ⟨-, htxEvents⟩, ⟨-, hctlEvents⟩, -, -, -, -, -, hout, -⟩ := frame_of_eq_withReceiverOf ht
  exact ⟨htx, hbuf, hout, htxEvents, hctlEvents⟩

/-- A taken wire byte is fatal only as an invalid escape with `ESCAPE_ERROR_FATAL` (R129). -/
theorem exec_decodeRxByte_keeps_fatal {s t : State} {ctx : RxContext} {w : Byte} (he : s.cfg.escapeErrorFatal = false)
    (h : exec (decodeRxByte s.cfg ctx w) s = .next t) : t.fatal = s.fatal := by
  by_cases hbad : decodeRxByte s.cfg ctx w = .rxEscBad w
  · rw [hbad] at h
    simp only [exec, execRxEscBad] at h
    split at h <;> cases h
    · rw [badEscape_recoverable (s := { s with rxEsc := false }) w he]; rfl
    · rfl
  · obtain ⟨-, hfatal⟩ := exec_wireByteRow_frame (decodeRxByte_mem s.cfg ctx w) h
    obtain ⟨hflag, -⟩ := hfatal hbad
    exact hflag

/-- With `ESCAPE_ERROR_FATAL = false` no RX turn enters the fatal state (R129, R181). -/
theorem rxTurn_not_fatal {offered : Bool} {s t : State} (hf : s.fatal = false) (he : s.cfg.escapeErrorFatal = false)
    (h : runAction (rxTurn offered s) = .next t) : t.fatal = false := by
  rcases rxTurn_cases hf offered with
    ⟨-, -, hx⟩ | ⟨ctx, w, rest, -, -, -, hx⟩ | ⟨rest, -, -, -, -, hx⟩ | ⟨-, -, hx⟩ | ⟨-, -, -, hx⟩ <;> rw [hx] at h
  · cases h; rw [rxStop_eq]; exact hf
  · exact (exec_decodeRxByte_keeps_fatal (s := { s with linkq := rest }) he h).trans hf
  · cases h; unfold rxTimeout; split <;> exact hf
  · cases h; unfold rxAckDone; split <;> exact hf
  · cases h; exact hf

/-! ## What the other turns leave -/

/-- `t` is `s` for the configuration, the schedule, the RX event port and the fatal flag. -/
def sameCourse (s t : State) : Prop := t.cfg = s.cfg ∧ t.sched = s.sched ∧ t.rxEv = s.rxEv ∧ t.fatal = s.fatal

theorem sameCourse_refl (s : State) : sameCourse s s := ⟨rfl, rfl, rfl, rfl⟩

theorem hostTurn_sameCourse {s t : State} (h : runAction (hostTurn s) = .next t) : sameCourse s t := by
  rcases hostTurn_cases s with
    ⟨-, he⟩ | ⟨w, rest, -, -, he⟩ | ⟨w, rest, i, -, hd, -, he⟩ | ⟨w, rest, i, -, -, -, he⟩ | ⟨w, rest, -, he⟩ |
    ⟨addr, rest, -, he⟩ <;> rw [he] at h
  · cases h; exact sameCourse_refl s
  · cases h
  · obtain ⟨u, rfl, -⟩ := exec_command_writes hd h
    exact sameCourse_refl s
  · cases h; exact sameCourse_refl s
  · obtain ⟨m, ev, evs, rfl, -⟩ := exec_txbWrite_writes h
    exact sameCourse_refl s
  · cases h; exact sameCourse_refl s

theorem txStep_sameCourse {ready : Bool} {s t : State} (h : txStep ready s = .next t) : sameCourse s t := by
  cases hf : s.fatal with
  | true => rw [show txStep ready s = .next s from if_pos hf] at h; cases h; exact sameCourse_refl s
  | false =>
    obtain ⟨u, rfl, -⟩ := txStep_writes hf h
    exact sameCourse_refl s

/-- A step is an RX turn, or it keeps the configuration, only takes its turn off the schedule, raises no RX event, and enters the
fatal state only as a link error (R6, R164, R175). -/
theorem step_rx_or_other {s t : State} (h : step s = .next t) :
    (∃ offered turns, s.sched = .rx offered :: turns ∧
      runAction (rxTurn offered { beginStep s with sched := turns }) = .next t) ∨
    (t.cfg = s.cfg ∧ t.sched = s.sched.tail ∧ t.rxEv = none ∧
      (s.fatal = false → Turn.linkErr ∉ s.sched → t.fatal = false)) := by
  cases hs : s.sched with
  | nil => rw [step_nil hs] at h; cases h; exact .inr ⟨rfl, hs, rfl, fun hf _ => hf⟩
  | cons a turns =>
    rw [step_cons hs] at h
    cases a with
    | reset => cases h; exact .inr ⟨rfl, rfl, rfl, fun _ _ => rfl⟩
    | linkErr =>
      cases h
      unfold linkError
      split <;> exact .inr ⟨rfl, rfl, rfl, fun _ hno => absurd List.mem_cons_self hno⟩
    | host =>
      obtain ⟨hcfg, hsched, hev, hfatal⟩ := hostTurn_sameCourse h
      exact .inr ⟨hcfg, hsched, hev, fun hf _ => hfatal.trans hf⟩
    | rx offered => exact .inl ⟨offered, turns, rfl, h⟩
    | tx ready =>
      obtain ⟨hcfg, hsched, hev, hfatal⟩ := txStep_sameCourse h
      exact .inr ⟨hcfg, hsched, hev, fun hf _ => hfatal.trans hf⟩

/-- No step changes the configuration (R45), and each takes its turn off the schedule. -/
theorem step_cfg_sched {s t : State} (h : step s = .next t) : t.cfg = s.cfg ∧ t.sched = s.sched.tail := by
  rcases step_rx_or_other h with ⟨offered, turns, hs, h⟩ | ⟨hcfg, hsched, -⟩
  · obtain ⟨q, items, ht⟩ := rxTurn_writes h
    obtain ⟨-, -, -, -, -, hcfg, -, -, hsched, -⟩ := frame_of_eq_withReceiverOf ht
    exact ⟨hcfg, by rw [hs]; exact hsched⟩
  · exact ⟨hcfg, hsched⟩

/-! ## Never fatal -/

/-- `s` is not fatal and nothing to come can make it so: escapes are recoverable and no link error is on the schedule (R181). -/
def State.harmless (s : State) : Prop := s.fatal = false ∧ s.cfg.escapeErrorFatal = false ∧ Turn.linkErr ∉ s.sched

theorem step_harmless {s t : State} (hs : s.harmless) (h : step s = .next t) : t.harmless := by
  obtain ⟨hf, he, hno⟩ := hs
  obtain ⟨hcfg, hsched⟩ := step_cfg_sched h
  refine ⟨?_, by rwa [hcfg], fun hm => hno (List.mem_of_mem_tail (hsched ▸ hm))⟩
  rcases step_rx_or_other h with ⟨offered, turns, -, h⟩ | ⟨-, -, -, hfatal⟩
  · exact rxTurn_not_fatal (s := { beginStep s with sched := turns }) hf he h
  · exact hfatal hf hno

/-- Settles O48, by induction on the run: every step keeps the state harmless. -/
theorem fuzzedReceiverIsNeverFatal : Obligations.FuzzedReceiverIsNeverFatal := by
  intro n s t hf he hno h
  obtain ⟨hfatal, -⟩ := run_induction (P := State.harmless) (fun _ _ => step_harmless) ⟨hf, he, hno⟩ h
  exact hfatal

/-! ## The checksum comes first -/

/-- The events that trust a frame's fields (R151). -/
def trustingEvents : List EventCode := [.rxAckSeen, .rxDropUnknownType, .rxDropShortMsg, .rxMsgReady]

/-- An event on the RX port that trusts a frame's fields comes with a residual sum of 0 (R151). -/
def State.eventTrustsSum (s : State) : Prop := ∀ e, s.rxEv = some e → e.code ∈ trustingEvents → s.rxSum = 0

theorem eventTrustsSum_of_none {s : State} (h : s.rxEv = none) : s.eventTrustsSum := fun e he => by
  rw [h] at he; cases he

theorem eventTrustsSum_of_code {s : State} {k : EventCode} {x : Byte} (h : s.rxEv = some ⟨k, x⟩) (hk : k ∉ trustingEvents) :
    s.eventTrustsSum := fun e he hm => by
  rw [h] at he; cases he; exact absurd hm hk

theorem badEscape_eventTrustsSum (w : Byte) (s : State) : (badEscape w s).eventTrustsSum := by
  unfold badEscape
  split
  · exact eventTrustsSum_of_code (k := .fatalBadEscape) rfl (by decide)
  · exact eventTrustsSum_of_code (k := .rxDropBadEscape) rfl (by decide)

/-- The rule of a field raises an event only at the checksum, and one that trusts the frame only if the sum is 0 (R136 to R139). -/
theorem rxField_eventTrustsSum {b : Byte} {s t : State} (hev : s.rxEv = none) (hs : s.rxState.isAccum = true)
    (hf : s.fatal = false) (hq : s.stopReq = false) (h : rxField b s = .next t) : t.eventTrustsSum := by
  rcases rxField_cases hs hf hq h with
    ⟨-, rfl⟩ | ⟨-, rfl⟩ | ⟨-, rfl⟩ | ⟨-, rfl⟩ | ⟨-, rfl⟩ | ⟨-, -, -, rfl⟩ | ⟨-, -, -, rfl⟩ | ⟨-, -, rfl⟩ |
    ⟨-, -, -, rfl⟩ | ⟨-, h0, -, rfl⟩ | ⟨-, h0, -, -, rfl⟩
  -- the dropped checksum, the Ack seen and the unknown type raise an event
  case inr.inr.inr.inr.inr.inr.inr.inl => exact eventTrustsSum_of_code (k := .rxDropChecksum) rfl (by decide)
  case inr.inr.inr.inr.inr.inr.inr.inr.inr.inl => exact fun _ _ _ => h0
  case inr.inr.inr.inr.inr.inr.inr.inr.inr.inr => exact fun _ _ _ => h0
  all_goals exact eventTrustsSum_of_none hev

theorem exec_wireByte_eventTrustsSum {s t : State} {ctx : RxContext} {w : Byte} (hev : s.rxEv = none)
    (ht : s.rxTakes ctx = true) (h : exec (decodeRxByte s.cfg ctx w) s = .next t) : t.eventTrustsSum := by
  obtain ⟨hf, hq, -⟩ := rxTakes_iff.1 ht
  rcases exec_wireByte_cases w ht with
    ⟨-, -, he⟩ | ⟨-, -, he⟩ | ⟨-, -, -, he⟩ | ⟨-, -, -, he⟩ | ⟨b, hr, -, he⟩ <;> rw [he] at h
  · cases h; exact eventTrustsSum_of_none hev
  · cases h; exact eventTrustsSum_of_none hev
  · cases h; exact eventTrustsSum_of_none hev
  · cases h; exact badEscape_eventTrustsSum w _
  · exact rxField_eventTrustsSum (s := { s with rxEsc := false, rxSum := s.rxSum + b }) hev hr hf hq h

/-- Leaving `ACK_WAIT`, the sum is 0 by the invariant (R140, R141). -/
theorem rxTurn_eventTrustsSum {offered : Bool} {s t : State} (hinv : s.Inv) (hev : s.rxEv = none)
    (h : runAction (rxTurn offered s) = .next t) : t.eventTrustsSum := by
  cases hf : s.fatal with
  | true => rw [rxTurn_of_fatal offered hf] at h; cases h; exact eventTrustsSum_of_none hev
  | false =>
    rcases rxTurn_cases hf offered with
      ⟨-, -, he⟩ | ⟨ctx, w, rest, ht, -, -, he⟩ | ⟨rest, -, -, -, -, he⟩ | ⟨hr, -, he⟩ | ⟨-, -, -, he⟩ <;> rw [he] at h
    · cases h
      unfold rxStop
      split
      · exact eventTrustsSum_of_code (k := .rxAbortStop) rfl (by decide)
      · exact eventTrustsSum_of_none hev
    · exact exec_wireByte_eventTrustsSum (s := { s with linkq := rest }) hev ht h
    · cases h
      unfold rxTimeout
      split
      · exact eventTrustsSum_of_code (k := .rxDropShortFrame) rfl (by decide)
      · exact eventTrustsSum_of_none hev
    · cases h
      obtain ⟨-, h0⟩ := hinv.validated (.inl hr)
      unfold rxAckDone
      split <;> exact fun _ _ _ => h0
    · cases h; exact eventTrustsSum_of_none hev

/-- Settles O55: the invariant after the step says what an Ack request stands on; an event comes from an RX turn, and of those only a
checksum byte and the turn that leaves `ACK_WAIT` trust the frame. -/
theorem checksumComesFirst : Obligations.ChecksumComesFirst := by
  refine fun s t hinv h => ⟨fun _ ha => ?_, ?_⟩
  · have hinv' := step_inv hinv h
    obtain ⟨hty, h0⟩ := hinv'.validated (.inl (hinv'.ackWhileWaiting ha))
    obtain ⟨hcfg, -⟩ := step_cfg_sched h
    exact ⟨h0, hcfg ▸ hty⟩
  · rcases step_rx_or_other h with ⟨offered, turns, -, h⟩ | ⟨-, -, hev, -⟩
    · exact rxTurn_eventTrustsSum (s := { beginStep s with sched := turns }) (hinv.withSurroundings ..) rfl h
    · exact eventTrustsSum_of_none hev

end Sys2Proof.Machine

/-! PROOFS. A frame ends (R147): every link item taken inside a frame leaves it or leaves fewer items that it can still take. -/

namespace Sys2Proof.Machine

/-- `s` is inside a frame and nothing but the frame's own end or abort can come of what the link gives: not fatal, no STOP, a bad escape
recoverable, and every body byte inside RXBUF (R8, R25). -/
structure State.MidFrame (s : State) : Prop where
  inFrame : s.rxState.isAccum = true
  notFatal : s.fatal = false
  noStop : s.stopReq = false
  recoverable : s.cfg.escapeErrorFatal = false
  roomy : 255 ≤ s.cfg.maxBody
  idxBelowLen : s.rxState = .body → s.rxIdx.toNat < s.rxLen.toNat

/-- How many logical bytes the frame can still take, the length byte being unknown before it is read (R147). -/
def State.bytesLeft (s : State) : Nat :=
  match s.rxState with
  | .ver => 261
  | .mod => 260
  | .seq => 259
  | .type => 258
  | .len => 257
  | .body => s.rxLen.toNat - s.rxIdx.toNat + 1
  | .cksum => 1
  | .stopped => 0
  | .hunt => 0
  | .ackWait => 0
  | .deliver => 0

/-- How many link items the frame can still take: two for a logical byte, one of them taken while an escape is pending. -/
def State.itemsLeft (s : State) : Nat := 2 * s.bytesLeft - s.rxEsc.toNat

/-- `t` is outside the frame, or still inside it with fewer link items to take. -/
def frameProgress (s t : State) : Prop := t.rxState.isAccum = false ∨ t.MidFrame ∧ t.itemsLeft < s.itemsLeft

theorem bytesLeft_pos {s : State} (hr : s.rxState.isAccum = true) : 0 < s.bytesLeft := by
  unfold State.bytesLeft
  cases h : s.rxState <;> simp [h, RxState.isAccum] at hr ⊢

/-- One logical byte less is at least one link item less, whatever escapes are pending. -/
theorem itemsLeft_lt_of_bytesLeft_lt {s t : State} (h : t.bytesLeft < s.bytesLeft) (he : t.rxEsc = false) :
    t.itemsLeft < s.itemsLeft := by
  have hs := s.rxEsc.toNat_le
  simp only [State.itemsLeft, he, Bool.toNat_false]
  omega

/-- The rule of a field ends the frame or moves it on by one logical byte (R130 to R139). -/
theorem rxField_progress {s : State} (h : s.MidFrame) (b : Byte) (he : s.rxEsc = false) :
    ∃ t, rxField b s = .next t ∧
      (t.rxState.isAccum = false ∨ t.MidFrame ∧ t.rxEsc = false ∧ t.bytesLeft < s.bytesLeft) := by
  have hlen := s.rxLen.isLt
  rcases rxField_stops (b := b) (s := s) with ⟨t, ht⟩ | ⟨hr, hi, -⟩
  case inr =>
    have hlt := h.idxBelowLen hr
    have hroom := h.roomy
    unfold Config.rxbufSize at hi
    omega
  refine ⟨t, ht, ?_⟩
  rcases rxField_cases h.inFrame h.notFatal h.noStop ht with
    ⟨hr, rfl⟩ | ⟨hr, rfl⟩ | ⟨hr, rfl⟩ | ⟨hr, rfl⟩ | ⟨hr, rfl⟩ | ⟨hr, -, -, rfl⟩ | ⟨hr, -, hl, rfl⟩ | ⟨-, -, rfl⟩ |
    ⟨-, -, -, rfl⟩ | ⟨-, -, -, rfl⟩ | ⟨-, -, -, -, rfl⟩
  iterate 4 exact .inr ⟨{ h with inFrame := rfl, idxBelowLen := nofun }, he, by simp [State.bytesLeft, hr]⟩
  · by_cases hb : b = 0
    · subst hb
      exact .inr ⟨{ h with inFrame := rfl, idxBelowLen := nofun }, he, by simp [State.bytesLeft, hr]⟩
    · have hb' := b.isLt
      rw [if_neg hb]
      refine .inr ⟨{ h with inFrame := rfl, idxBelowLen := fun _ => ?_ }, he, ?_⟩
      · show 0 < b.toNat
        bv_omega
      · simp only [State.bytesLeft, hr]
        show b.toNat - 0 + 1 < 257
        omega
  · have hlt := h.idxBelowLen hr
    refine .inr ⟨{ h with inFrame := rfl, idxBelowLen := nofun }, he, ?_⟩
    simp only [State.bytesLeft, hr]
    omega
  · have hlt := h.idxBelowLen hr
    have hsucc := toNat_add_one_of_lt hlt
    have hne : s.rxIdx.toNat + 1 ≠ s.rxLen.toNat := fun heq => hl (BitVec.eq_of_toNat_eq (hsucc.trans heq))
    refine .inr ⟨{ h with idxBelowLen := fun _ => ?_ }, he, ?_⟩
    · show (s.rxIdx + 1).toNat < s.rxLen.toNat
      omega
    · simp only [State.bytesLeft, hr]
      omega
  all_goals exact .inl rfl

/-- A wire byte taken inside a frame ends it or leaves fewer link items to take (R128, R129). -/
theorem exec_wireByte_progress {s : State} {ctx : RxContext} (h : s.MidFrame) (ht : s.rxTakes ctx = true) (w : Byte) :
    ∃ t, exec (decodeRxByte s.cfg ctx w) s = .next t ∧ frameProgress s t := by
  have hpos := bytesLeft_pos h.inFrame
  have hin := h.inFrame
  rcases exec_wireByte_cases w ht with
    ⟨hr, -⟩ | ⟨hr, -⟩ | ⟨-, hesc, -, he⟩ | ⟨-, -, -, he⟩ | ⟨b, -, -, he⟩
  · rw [hr] at hin; cases hin
  · rw [hr] at hin; cases hin
  · refine ⟨_, he, .inr ⟨{ h with }, ?_⟩⟩
    show 2 * s.bytesLeft - 1 < 2 * s.bytesLeft - s.rxEsc.toNat
    rw [hesc, Bool.toNat_false]
    omega
  · refine ⟨_, he, .inl ?_⟩
    rw [badEscape_recoverable (s := { s with rxEsc := false }) w h.recoverable]
    rfl
  · obtain ⟨t, hx, hdone⟩ :=
      rxField_progress (s := { s with rxEsc := false, rxSum := s.rxSum + b }) { h with } b rfl
    exact ⟨t, he.trans hx, hdone.imp_right fun ⟨hmid, hte, hlt⟩ => ⟨hmid, itemsLeft_lt_of_bytesLeft_lt (s := s) hlt hte⟩⟩

/-- So does an offered RX turn, with a byte or with a timeout (R125, R144). -/
theorem step_progress {s : State} {item : LinkItem} {items : List LinkItem} {turns : List Turn} (h : s.MidFrame)
    (hs : s.sched = .rx true :: turns) (hl : s.linkq = item :: items) : ∃ t, step s = .next t ∧ frameProgress s t := by
  have hr : s.rxState.isByteState = true := isByteState_iff.2 (.inr h.inFrame)
  cases item with
  | byte w =>
    obtain ⟨ctx, hc⟩ := rxContext_of_isByteState hr
    have ht : s.rxTakes ctx = true := rxTakes_iff.2 ⟨h.notFatal, h.noStop, hc⟩
    obtain ⟨-, -, hbyte⟩ := stepRunsDecodedInstruction
    rw [hbyte s w ctx items turns hs hl ht]
    exact exec_wireByte_progress (s := { beginStep s with sched := turns, linkq := items }) { h with } ht w
  | timeout =>
    refine ⟨_, (step_cons hs).trans (congrArg runAction
      (rxTurn_of_timeout (s := { beginStep s with sched := turns }) h.notFatal hr h.noStop hl)), .inl ?_⟩
    rw [rxTimeout_inFrame (s := { beginStep s with sched := turns, linkq := items }) h.inFrame]
    rfl

/-- Given an item for each that the frame can still take, the receiver leaves the frame. -/
theorem run_leaves_frame {n : Nat} {s : State} {turns : List Turn} (h : s.MidFrame) (hn : s.itemsLeft ≤ n)
    (hs : s.sched = List.replicate n (.rx true) ++ turns) (hl : n ≤ s.linkq.length) :
    ∃ m t, m ≤ n ∧ core.run m s = .next t ∧ t.rxState.isAccum = false := by
  induction n generalizing s with
  | zero =>
    have hpos := bytesLeft_pos h.inFrame
    have hesc := s.rxEsc.toNat_le
    unfold State.itemsLeft at hn
    omega
  | succ n ih =>
    cases hq : s.linkq with
    | nil => rw [hq] at hl; cases hl
    | cons item items =>
      obtain ⟨t, ht, hdone | ⟨hmid, hlt⟩⟩ := step_progress h hs hq
      · exact ⟨1, t, by omega, run_one ht, hdone⟩
      · obtain ⟨-, htaken, -⟩ := rxPortTakesExactlyWhenReady
        have hready : s.rxReady = true := rxReady_iff.2 ⟨h.notFatal, .inr h.inFrame, h.noStop⟩
        have hlink := htaken s t item items _ hs hq ht
        rw [if_pos hready] at hlink
        obtain ⟨-, hsched⟩ := step_cfg_sched ht
        have hlen : n ≤ t.linkq.length := by
          rw [hlink]; rw [hq] at hl; exact Nat.le_of_succ_le_succ hl
        obtain ⟨m, u, hm, hu, hout⟩ := ih hmid (by omega) (by rw [hsched, hs]; rfl) hlen
        exact ⟨m + 1, u, by omega, (run_succ ht).trans hu, hout⟩

/-- Settles O49: at `VER` the frame can still take 261 logical bytes, so at most 522 link items. -/
theorem frameEndsWithin522Bytes : Obligations.FrameEndsWithin522Bytes := by
  intro s turns hr he hf hq hrec hbuf hs hl
  have hmid : s.MidFrame := ⟨by rw [hr]; rfl, hf, hq, hrec, hbuf, by simp [hr]⟩
  have hleft : s.itemsLeft = 522 := by simp [State.itemsLeft, State.bytesLeft, hr, he]
  exact run_leaves_frame hmid hleft.le hs hl

end Sys2Proof.Machine

/-! PROOFS. The host commands other than SEND, the TXBUF write and the link error (spec/43_control.md): what each does where its rule
applies (R156 to R162, R164), that the fatal state discards them (R165), and what a command row and a TXBUF write leave unchanged. -/

namespace Sys2Proof.Machine

/-! ## The commands -/

/-- START moves `STOPPED` to `HUNT` and cancels a STOP not yet taken (R156). -/
theorem exec_start {s : State} (hf : s.fatal = false) :
    exec .start s = .next { s with rxState := if s.rxState = .stopped then .hunt else s.rxState, stopReq := false } := by
  simp [exec, execStart, hf]

/-- STOP requests the stop of a running receiver (R157). -/
theorem exec_stop {s : State} (hf : s.fatal = false) :
    exec .stop s = .next (if s.rxState = .stopped then s else { s with stopReq := true }) := by
  by_cases hr : s.rxState = .stopped <;> simp [exec, execStop, hf, hr]

/-- Settles O1: NOP by definition, START and STOP by their rules where the block is not fatal. -/
theorem nopStartStopEffects : Obligations.NopStartStopEffects :=
  ⟨fun _ => rfl, fun _ => exec_start, fun _ => exec_stop⟩

/-- RX_RELEASE ends a delivery (R158). -/
theorem exec_rxRelease_of_deliver {s : State} (hf : s.fatal = false) (hr : s.rxState = .deliver) :
    exec .rxRelease s = .next { s with rxState := .hunt } := by
  simp [exec, execRxRelease, hf, hr]

/-- RX_RELEASE with nothing delivered is illegal (R158). -/
theorem exec_rxRelease_of_ne_deliver {s : State} (hf : s.fatal = false) (hr : s.rxState ≠ .deliver) :
    exec .rxRelease s = .next (commandIllegal 4 s) := by
  simp [exec, execRxRelease, hf, hr]

/-- Settles O4: the two outcomes of a release; a deframer that hunts delivers nothing. -/
theorem releaseHuntsOrIsIllegal : Obligations.ReleaseHuntsOrIsIllegal :=
  fun _ hf => ⟨fun hr => ⟨_, exec_rxRelease_of_deliver hf hr, rxFrameValid_eq_false_iff.2 (.inr nofun), rfl⟩,
    exec_rxRelease_of_ne_deliver hf⟩

/-- The reserved bits and the code alone decide a command that is no SEND: its length and opcode fields are ignored (R81). -/
theorem decode_cw_ignores_len_opcode (c : Config) {w : CommandWord} (hr : commandReserved w = 0#5) (hc : commandCode w ≠ 3#3) :
    decode c (.cw w) = decode c (.cw (encodeCommand (commandCode w) 0 0)) := by
  have h3 : (commandCode w).toNat ≠ 3 := fun h => hc (BitVec.eq_of_toNat_eq h)
  simp only [decode, decodeCommand, commandReserved_encodeCommand, commandCode_encodeCommand]
  rw [if_pos hr, if_pos trivial]
  split
  case h_4 heq => exact absurd heq h3
  all_goals rfl

/-- A reserved code is illegal, with the code in the event (R160). -/
theorem reservedCommand_of_not_fatal (code : BitVec 3) {s : State} (hf : s.fatal = false) :
    reservedCommand code s = .next (commandIllegal code s) := by
  simp [reservedCommand, hf]

/-- Settles O5: each word decodes as the word of its code with the ignored fields 0, and each of the three rows is the illegal
command of its code. -/
theorem reservedCodesRaiseIllegal : Obligations.ReservedCodesRaiseIllegal := by
  refine ⟨fun c w => ⟨fun hr hc => ?_, fun hr hc => ?_, fun hr hc => ?_, decode_cw_reject c⟩, fun s hf =>
    ⟨reservedCommand_of_not_fatal 5 hf, reservedCommand_of_not_fatal 6 hf, reservedCommand_of_not_fatal 7 hf⟩⟩
  all_goals
    rw [decode_cw_ignores_len_opcode c hr (by rw [hc]; decide), hc]
    rfl

/-! ## The TXBUF write -/

/-- A TXBUF write with no Message queued or in flight, inside TXBUF, stores its byte (R161). -/
theorem exec_txbWrite_stores {s : State} {addr : Byte} (data : Byte) (hf : s.fatal = false) (hb : s.txMsgBusy = false)
    (ha : addr.toNat < s.cfg.txbufSize) :
    exec (.txbWrite addr data) s = .next { s with txbuf := Memory.write s.txbuf addr.toNat data } := by
  have hfree : (s.txMsgBusy || decide (s.cfg.txbufSize ≤ addr.toNat)) = false := by simp [hb, ha]
  simp only [exec, execTxbWrite, hf, hfree, Bool.false_eq_true, if_false]

/-- A TXBUF write while a Message is queued or in flight, or outside TXBUF, is refused (R162). -/
theorem exec_txbWrite_refused {s : State} {addr : Byte} (data : Byte) (hf : s.fatal = false)
    (h : s.txMsgBusy = true ∨ s.cfg.txbufSize ≤ addr.toNat) :
    exec (.txbWrite addr data) s = .next (raiseCtl .txbWriteRefused addr s) := by
  have hrefused : (s.txMsgBusy || decide (s.cfg.txbufSize ≤ addr.toNat)) = true := by simpa using h
  simp only [exec, execTxbWrite, hf, hrefused, Bool.false_eq_true, if_false, if_true]

/-- Settles O7: the store is a write of TXBUF at the index alone, and a byte written has its written bit (R35). -/
theorem txbWriteStoresOrIsRefused : Obligations.TxbWriteStoresOrIsRefused := by
  refine fun s addr data hf => ⟨fun hb ha => ?_, exec_txbWrite_refused data hf⟩
  refine ⟨_, exec_txbWrite_stores data hf hb ha, fun a => Memory.read_write s.txbuf addr.toNat a data, ?_, rfl⟩
  simp [State.txbWritten]

/-- Settles O9: a write that stores changes TXBUF at its index alone, one that is refused raises the event alone, and one while fatal
changes nothing. -/
theorem txbWriteFrame : Obligations.TxbWriteFrame := by
  intro s t addr data h
  have hbuf : (∀ a : Nat, a ≠ addr.toNat → Memory.read t.txbuf a = Memory.read s.txbuf a) ∧
      (sameTxbuf s t ∨ sameCtlEvents s t) := by
    rcases exec_txbWrite_cases h with ⟨-, rfl⟩ | ⟨-, -, rfl⟩ | ⟨-, -, -, rfl⟩
    · exact ⟨fun _ _ => rfl, .inl fun _ => rfl⟩
    · exact ⟨fun _ _ => rfl, .inl fun _ => rfl⟩
    · exact ⟨fun _ ha => Memory.read_write_other _ _ ha, .inr ⟨rfl, rfl⟩⟩
  obtain ⟨hother, hone⟩ := hbuf
  obtain ⟨m, ev, evs, rfl, -⟩ := exec_txbWrite_writes h
  obtain ⟨hreceiver, htransmitter, -, hrxbuf, -⟩ := sameBlock_refl s
  exact ⟨hother, hrxbuf, hreceiver, rfl, htransmitter, ⟨rfl, rfl⟩, ⟨rfl, rfl, rfl, rfl, rfl, rfl, rfl⟩, ⟨rfl, rfl⟩,
    ⟨rfl, rfl⟩, hone⟩

/-! ## The fatal state -/

/-- The command rows of the opcode table, the SEND rows with the operands given. -/
def commandRows (opcode : Opcode) (len : Byte) : List Instr :=
  [.nop, .start, .stop, .send opcode len, .sendOversize len, .rxRelease, .rsvd5, .rsvd6, .rsvd7]

/-- While fatal a command has no effect and no event (R165). -/
theorem exec_commandRow_of_fatal {i : Instr} {s : State} {opcode : Opcode} {len : Byte} (hf : s.fatal = true)
    (hi : i ∈ commandRows opcode len) : exec i s = .next s := by
  have hsend : s.sendAccepted = false := by simp [State.sendAccepted, hf]
  simp only [commandRows, List.mem_cons, List.not_mem_nil, or_false] at hi
  rcases hi with rfl | rfl | rfl | rfl | rfl | rfl | rfl | rfl | rfl
  case inr.inr.inr.inl => exact exec_send_not_accepted opcode len hsend
  case inr.inr.inr.inr.inl => exact exec_sendOversize_not_accepted len hsend
  case inl => rfl
  case inr.inr.inl => simp [exec, execStop, hf]
  all_goals exact if_pos hf

/-- While fatal a TXBUF write has no effect and no event (R165). -/
theorem exec_txbWrite_of_fatal {s : State} (addr data : Byte) (hf : s.fatal = true) : exec (.txbWrite addr data) s = .next s :=
  if_pos hf

theorem linkError_of_fatal {s : State} (hf : s.fatal = true) : linkError s = s := if_pos hf

theorem linkError_of_not_fatal {s : State} (hf : s.fatal = false) :
    linkError s = raiseFatal .fatalLink (raiseCtl .fatalLink 0 s) := by
  simp [linkError, hf]

/-- No turn but reset leaves the fatal state (R183): the link error and the engines do nothing, and no host action writes the flag. -/
theorem turn_keeps_fatal {a : Turn} {s t : State} (hf : s.fatal = true) (ha : a ≠ .reset) (h : runAction (turn a s) = .next t) :
    t.fatal = true := by
  cases a with
  | reset => exact absurd rfl ha
  | linkErr => rw [turn, linkError_of_fatal hf] at h; cases h; exact hf
  | host => obtain ⟨-, -, -, hkeep⟩ := hostTurn_sameCourse h; exact hkeep.trans hf
  | rx offered => rw [turn, rxTurn_of_fatal offered hf] at h; cases h; exact hf
  | tx ready => obtain ⟨-, -, -, hkeep⟩ := txStep_sameCourse h; exact hkeep.trans hf

/-- No step but a reset leaves the fatal state (R183). -/
theorem step_keeps_fatal {s t : State} (hf : s.fatal = true) (hs : ∀ turns, s.sched ≠ .reset :: turns) (h : step s = .next t) :
    t.fatal = true := by
  cases hsched : s.sched with
  | nil => rw [step_nil hsched] at h; cases h; exact hf
  | cons a turns =>
    rw [step_cons hsched] at h
    exact turn_keeps_fatal (s := { beginStep s with sched := turns }) hf (fun ha => hs turns (ha ▸ hsched)) h

theorem hcReady_of_fatal {s : State} (hf : s.fatal = true) (code : BitVec 3) : s.hcReady code = true := by
  simp [State.hcReady, hf]

/-- Settles O6: the rows one by one, the outputs as outside every delivery, and the fatal flag over a step. -/
theorem fatalStateDiscardsCommandsAndWrites : Obligations.FatalStateDiscardsCommandsAndWrites := by
  intro s opcode len addr data hf
  have hv : s.rxFrameValid = false := rxFrameValid_eq_false_iff.2 (.inl hf)
  obtain ⟨hop, hplen, hseq, hver, hmod, hread⟩ := free_outputs_of_not_valid hv
  refine ⟨hcReady_of_fatal hf, fun i hi => ?_, hv, hread addr, hop, hplen, hseq, hver, hmod, fun t => step_keeps_fatal hf⟩
  rcases (List.mem_append (s := commandRows opcode len) (t := [.txbWrite addr data])).1 hi with hrow | hwrite
  · exact exec_commandRow_of_fatal hf hrow
  · rw [List.mem_singleton.1 hwrite]; exact exec_txbWrite_of_fatal addr data hf

/-- Settles O29: the turn is `linkError`, and the outputs are those of its fatal flag. -/
theorem linkErrorEntersFatalState : Obligations.LinkErrorEntersFatalState := by
  refine fun s turns hs => ⟨fun hf => ?_, fun hf => ?_⟩
  all_goals rw [step_cons hs]
  · exact congrArg Host.Outcome.next (linkError_of_fatal (s := { beginStep s with sched := turns }) hf)
  · refine ⟨_, congrArg Host.Outcome.next (linkError_of_not_fatal (s := { beginStep s with sched := turns }) hf), rfl, rfl, rfl,
      rfl, rfl, rfl, hcReady_of_fatal rfl⟩

/-! ## The frame of the command rows -/

/-- Everything a command row can do, and which row does it; no row that raises an event is NOP, START, STOP or SEND. -/
theorem exec_commandRow_cases {i : Instr} {s t : State} {opcode : Opcode} {len : Byte} (hi : i ∈ commandRows opcode len)
    (h : exec i s = .next t) :
    t = s ∨
    (i = .start ∧ t = { s with rxState := if s.rxState = .stopped then .hunt else s.rxState, stopReq := false }) ∨
    (i = .stop ∧ t = { s with stopReq := true }) ∨
    (i = .send opcode len ∧
      t = { s with msgOpcode := opcode, msgLen := len, msgSeq := s.seqNext, seqNext := s.seqNext + 1, msgPending := true }) ∨
    (i = .rxRelease ∧ t = { s with rxState := .hunt }) ∨
    (i ∉ [Instr.nop, .start, .stop, .send opcode len] ∧ ∃ code arg, t = raiseCtl code arg s) := by
  rcases Bool.eq_false_or_eq_true s.fatal with hf | hf
  · rw [exec_commandRow_of_fatal hf hi] at h; cases h; exact .inl rfl
  · simp only [commandRows, List.mem_cons, List.not_mem_nil, or_false] at hi
    rcases hi with rfl | rfl | rfl | rfl | rfl | rfl | rfl | rfl | rfl
    · cases h; exact .inl rfl
    · rw [exec_start hf] at h; cases h; exact .inr (.inl ⟨rfl, rfl⟩)
    · rw [exec_stop hf] at h
      split at h <;> cases h
      · exact .inl rfl
      · exact .inr (.inr (.inl ⟨rfl, rfl⟩))
    · rw [exec, execSend] at h
      split at h <;> cases h
      · exact .inr (.inr (.inr (.inl ⟨rfl, rfl⟩)))
      · exact .inl rfl
    · rw [exec, execSendOversize] at h
      split at h <;> cases h
      · exact .inr (.inr (.inr (.inr (.inr ⟨by simp, _, _, rfl⟩))))
      · exact .inl rfl
    · by_cases hr : s.rxState = .deliver
      · rw [exec_rxRelease_of_deliver hf hr] at h; cases h
        exact .inr (.inr (.inr (.inr (.inl ⟨rfl, rfl⟩))))
      · rw [exec_rxRelease_of_ne_deliver hf hr] at h; cases h
        exact .inr (.inr (.inr (.inr (.inr ⟨by simp, _, _, rfl⟩))))
    all_goals
      cases (reservedCommand_of_not_fatal _ hf).symm.trans h
      exact .inr (.inr (.inr (.inr (.inr ⟨by simp, _, _, rfl⟩))))

/-- A state that differs from `s` in what a command may write alone has the rest of `s`. -/
theorem frame_of_eq_withCommandOf {s t u : State} (h : t = s.withCommandOf u) :
    sameTxbuf s t ∧ sameRxbuf s t ∧ sameFatal s t ∧ sameSurroundings s t ∧ sameRxEvents s t ∧ sameTxEvents s t ∧
    sameReceiver { s with rxState := t.rxState } t ∧
    sameTransmitter { s with seqNext := t.seqNext, msgPending := t.msgPending, msgOpcode := t.msgOpcode,
                             msgLen := t.msgLen, msgSeq := t.msgSeq } t := by
  subst h
  exact ⟨fun _ => rfl, fun _ => rfl, ⟨rfl, rfl⟩, ⟨rfl, rfl, rfl, rfl, rfl, rfl, rfl⟩, ⟨rfl, rfl⟩, ⟨rfl, rfl⟩,
    ⟨rfl, rfl, rfl, rfl, rfl, rfl, rfl, rfl, rfl, rfl⟩, rfl, rfl, rfl, rfl, rfl, rfl, rfl, rfl⟩

/-- Each field that a command may write is bound to its own rows: `rx_state` to START and RX_RELEASE, the STOP request to START and
STOP, the counter and the slot to SEND; NOP, START, STOP and SEND raise no event. -/
theorem exec_commandRow_binds {i : Instr} {s t : State} {opcode : Opcode} {len : Byte} (hi : i ∈ commandRows opcode len)
    (h : exec i s = .next t) :
    (i ≠ .start → i ≠ .rxRelease → t.rxState = s.rxState) ∧ (i ≠ .start → i ≠ .stop → t.stopReq = s.stopReq) ∧
    (i ≠ .send opcode len → sameTransmitter s t) ∧ (i ∈ [Instr.nop, .start, .stop, .send opcode len] → sameCtlEvents s t) := by
  have htx := sameTransmitter_refl s
  have hctl : sameCtlEvents s s := ⟨rfl, rfl⟩
  rcases exec_commandRow_cases hi h with
    rfl | ⟨rfl, rfl⟩ | ⟨rfl, rfl⟩ | ⟨rfl, rfl⟩ | ⟨rfl, rfl⟩ | ⟨hnone, code, arg, rfl⟩
  · exact ⟨fun _ _ => rfl, fun _ _ => rfl, fun _ => htx, fun _ => hctl⟩
  · exact ⟨fun hne _ => absurd rfl hne, fun hne _ => absurd rfl hne, fun _ => htx, fun _ => hctl⟩
  · exact ⟨fun _ _ => rfl, fun _ hne => absurd rfl hne, fun _ => htx, fun _ => hctl⟩
  · exact ⟨fun _ _ => rfl, fun _ _ => rfl, fun hne => absurd rfl hne, fun _ => hctl⟩
  · exact ⟨fun _ hne => absurd rfl hne, fun _ _ => rfl, fun _ => htx, fun _ => hctl⟩
  · exact ⟨fun _ _ => rfl, fun _ _ => rfl, fun _ => htx, fun hmem => absurd hmem hnone⟩

/-- Settles O8: the frame of all that any command may write, and the rows that each of those fields is bound to. -/
theorem commandRowsFrame : Obligations.CommandRowsFrame := by
  intro i s t opcode len hi h
  have hwrites : t = s.withCommandOf t := by
    rcases exec_commandRow_cases hi h with
      rfl | ⟨-, rfl⟩ | ⟨-, rfl⟩ | ⟨-, rfl⟩ | ⟨-, rfl⟩ | ⟨-, code, arg, rfl⟩ <;> rfl
  obtain ⟨htxbuf, hrxbuf, hfatal, hsur, hrxEv, htxEv, hreceiver, htransmitter⟩ := frame_of_eq_withCommandOf hwrites
  exact ⟨htxbuf, hrxbuf, hfatal, hsur, hrxEv, htxEv, hreceiver, htransmitter, exec_commandRow_binds hi h⟩

end Sys2Proof.Machine

/-! PROOFS. The fatal state: what enters it (R181), and what it freezes until reset (R182, R183). -/

namespace Sys2Proof.Machine

/-! ## What enters it -/

/-- A taken wire byte enters the fatal state only as an invalid escape, with `ESCAPE_ERROR_FATAL` (R129). -/
theorem exec_wireByte_enters_fatal {s t : State} {ctx : RxContext} {w : Byte} (ht : s.rxTakes ctx = true)
    (h : exec (decodeRxByte s.cfg ctx w) s = .next t) (hfatal : t.fatal = true) :
    unstuff s.cfg w = none ∧ s.cfg.escapeErrorFatal = true ∧ s.rxEsc = true ∧ s.rxState.isAccum = true ∧ t.fatalCause = 0xE := by
  obtain ⟨hf, hq, -⟩ := rxTakes_iff.1 ht
  rcases exec_wireByte_cases w ht with
    ⟨-, -, he⟩ | ⟨-, -, he⟩ | ⟨-, -, -, he⟩ | ⟨hr, hesc, hbad, he⟩ | ⟨b, hr, -, he⟩ <;> rw [he] at h
  case inr.inr.inr.inl =>
    cases h
    cases hstrict : s.cfg.escapeErrorFatal with
    | true =>
      rw [badEscape_fatal (s := { s with rxEsc := false }) w hstrict]
      exact ⟨hbad, rfl, hesc, hr, rfl⟩
    | false =>
      rw [badEscape_recoverable (s := { s with rxEsc := false }) w hstrict] at hfatal
      cases hf.symm.trans hfatal
  case inr.inr.inr.inr =>
    obtain ⟨-, hkeep, -⟩ := rxField_frame (s := { s with rxEsc := false, rxSum := s.rxSum + b }) hr hf hq h
    cases hf.symm.trans (hkeep.symm.trans hfatal)
  all_goals cases h; cases hf.symm.trans hfatal

/-- An RX turn enters the fatal state only by the byte it takes: STOP, a timeout and the end of `ACK_WAIT` do not (R181). -/
theorem rxTurn_enters_fatal {offered : Bool} {s t : State} (hf : s.fatal = false)
    (h : runAction (rxTurn offered s) = .next t) (hfatal : t.fatal = true) :
    (∃ w items, offered = true ∧ s.linkq = .byte w :: items ∧ unstuff s.cfg w = none) ∧
      s.cfg.escapeErrorFatal = true ∧ s.rxEsc = true ∧ s.rxState.isAccum = true ∧ t.fatalCause = 0xE := by
  have hno : t.fatal ≠ s.fatal := fun hkeep => by cases hf.symm.trans (hkeep.symm.trans hfatal)
  rcases rxTurn_cases hf offered with
    ⟨-, -, hx⟩ | ⟨ctx, w, rest, ht, ho, hl, hx⟩ | ⟨rest, -, -, -, -, hx⟩ | ⟨-, -, hx⟩ | ⟨-, -, -, hx⟩ <;> rw [hx] at h
  · cases h; exact absurd (by rw [rxStop_eq]) hno
  · obtain ⟨hbad, hrest⟩ := exec_wireByte_enters_fatal (s := { s with linkq := rest }) ht h hfatal
    exact ⟨⟨w, rest, ho, hl, hbad⟩, hrest⟩
  · cases h; exact absurd (by unfold rxTimeout; split <;> rfl) hno
  · cases h; exact absurd (by unfold rxAckDone; split <;> rfl) hno
  · cases h; exact absurd rfl hno

/-- Settles O47: by whose turn it is. The host and the TX engine keep the fatal flag, and reset clears it. -/
theorem fatalStateHasTwoCauses : Obligations.FatalStateHasTwoCauses := by
  intro s t hf h hfatal
  have hno : t.fatal ≠ s.fatal := fun hkeep => by cases hf.symm.trans (hkeep.symm.trans hfatal)
  cases hs : s.sched with
  | nil => rw [step_nil hs] at h; cases h; exact absurd rfl hno
  | cons a turns =>
    rw [step_cons hs] at h
    cases a with
    | reset => cases h; cases hfatal
    | linkErr =>
      rw [turn, linkError_of_not_fatal (s := { beginStep s with sched := turns }) hf] at h
      cases h; exact .inl ⟨⟨turns, rfl⟩, rfl⟩
    | host => obtain ⟨-, -, -, hkeep⟩ := hostTurn_sameCourse h; exact absurd hkeep hno
    | tx ready => obtain ⟨-, -, -, hkeep⟩ := txStep_sameCourse h; exact absurd hkeep hno
    | rx offered =>
      obtain ⟨⟨w, items, rfl, hl, hbad⟩, hrest⟩ := rxTurn_enters_fatal (s := { beginStep s with sched := turns }) hf h hfatal
      exact .inr ⟨⟨turns, w, items, rfl, hl, hbad⟩, hrest⟩

/-! ## What it freezes -/

/-- While fatal a command that decodes has no effect and no event (R165). -/
theorem exec_command_of_fatal {c : Config} {w : CommandWord} {i : Instr} {s t : State} (hf : s.fatal = true)
    (hd : decode c (.cw w) = .instr i) (h : exec i s = .next t) : t = s := by
  have hnot : s.fatal ≠ false := by simp [hf]
  rcases exec_command_cases hd h with
    rfl | ⟨-, hf', -⟩ | ⟨-, hf', -⟩ | ⟨-, -, -, hf', -⟩ | ⟨-, hf', -⟩ | ⟨hf', -⟩
  · rfl
  all_goals exact absurd hf' hnot

/-- While fatal a host's turn takes the host's action and no more: a command or a TXBUF write is discarded, and a read is
recorded (R163, R165). -/
theorem hostTurn_of_fatal {s t : State} (hf : s.fatal = true) (h : runAction (hostTurn s) = .next t) :
    ∃ acts reads, t = { s with hostq := acts, hostReads := reads } := by
  rcases hostTurn_cases s with
    ⟨-, he⟩ | ⟨w, rest, -, -, he⟩ | ⟨w, rest, i, -, hd, -, he⟩ | ⟨w, rest, i, -, -, -, he⟩ | ⟨w, rest, -, he⟩ |
    ⟨addr, rest, -, he⟩ <;> rw [he] at h
  · cases h; exact ⟨_, _, rfl⟩
  · cases h
  · exact ⟨_, _, exec_command_of_fatal (s := { s with hostq := rest }) hf hd h⟩
  · cases h; exact ⟨_, _, rfl⟩
  · cases (exec_txbWrite_of_fatal (s := { s with hostq := rest }) _ _ hf).symm.trans h; exact ⟨_, _, rfl⟩
  · cases h; exact ⟨_, _, rfl⟩

/-- While fatal no turn but reset changes more than the host's script and its reads (R183). -/
theorem turn_of_fatal {a : Turn} {s t : State} (hf : s.fatal = true) (ha : a ≠ .reset) (h : runAction (turn a s) = .next t) :
    ∃ acts reads, t = { s with hostq := acts, hostReads := reads } := by
  cases a with
  | reset => exact absurd rfl ha
  | linkErr => rw [turn, linkError_of_fatal hf] at h; cases h; exact ⟨_, _, rfl⟩
  | host => exact hostTurn_of_fatal hf h
  | rx offered => rw [turn, rxTurn_of_fatal offered hf] at h; cases h; exact ⟨_, _, rfl⟩
  | tx ready => rw [turn, show txStep ready s = .next s from if_pos hf] at h; cases h; exact ⟨_, _, rfl⟩

/-- While fatal a step that is no reset clears the event ports and moves the script on, and changes nothing else but the host's
reads (R182, R183). -/
theorem step_of_fatal {s t : State} (hf : s.fatal = true) (hno : ∀ turns, s.sched ≠ .reset :: turns) (h : step s = .next t) :
    ∃ turns acts reads, t = { beginStep s with sched := turns, hostq := acts, hostReads := reads } := by
  cases hs : s.sched with
  | nil => rw [step_nil hs] at h; cases h; exact ⟨s.sched, s.hostq, s.hostReads, rfl⟩
  | cons a turns =>
    rw [step_cons hs] at h
    obtain ⟨acts, reads, ht⟩ :=
      turn_of_fatal (s := { beginStep s with sched := turns }) hf (fun ha => hno turns (ha ▸ hs)) h
    exact ⟨turns, acts, reads, ht⟩

/-- Settles O46: none of the fields the statement names is an event port, the script or a read of the host's. -/
theorem fatalStateIsFrozenUntilReset : Obligations.FatalStateIsFrozenUntilReset := by
  intro s t hf hno h
  obtain ⟨turns, acts, reads, rfl⟩ := step_of_fatal hf hno h
  obtain ⟨hrx, htx, htxbuf, hrxbuf, hout⟩ := sameBlock_refl s
  exact ⟨hrx, rfl, htx, ⟨rfl, rfl⟩, htxbuf, hrxbuf, rfl, rfl, rfl, rfl, hout⟩

end Sys2Proof.Machine

/-! PROOFS. The event ports: a step raises one event at most, and a port's history grows by the event the port shows (R42, R175). -/

namespace Sys2Proof.Machine

/-! ## One event at most -/

/-- The three event ports and their histories. -/
def sameEvents (s t : State) : Prop := sameRxEvents s t ∧ sameTxEvents s t ∧ sameCtlEvents s t

theorem sameEvents_refl (s : State) : sameEvents s s := ⟨⟨rfl, rfl⟩, ⟨rfl, rfl⟩, rfl, rfl⟩

/-- From `s` to `t` no event is raised, or one on one of the three ports. -/
def raisesAtMostOne (s t : State) : Prop :=
  sameEvents s t ∨ ∃ k x, sameEvents (raiseRx k x s) t ∨ sameEvents (raiseTx k x s) t ∨ sameEvents (raiseCtl k x s) t

theorem raisesAtMostOne_refl (s : State) : raisesAtMostOne s s := .inl (sameEvents_refl s)

theorem raiseRx_raisesAtMostOne (k : EventCode) (x : Byte) (s : State) : raisesAtMostOne s (raiseRx k x s) :=
  .inr ⟨k, x, .inl (sameEvents_refl _)⟩

theorem raiseTx_raisesAtMostOne (k : EventCode) (x : Byte) (s : State) : raisesAtMostOne s (raiseTx k x s) :=
  .inr ⟨k, x, .inr (.inl (sameEvents_refl _))⟩

theorem raiseCtl_raisesAtMostOne (k : EventCode) (x : Byte) (s : State) : raisesAtMostOne s (raiseCtl k x s) :=
  .inr ⟨k, x, .inr (.inr (sameEvents_refl _))⟩

/-! ## The operations -/

theorem linkError_raisesAtMostOne (s : State) : raisesAtMostOne s (linkError s) := by
  unfold linkError
  split
  · exact raisesAtMostOne_refl s
  · exact raiseCtl_raisesAtMostOne .fatalLink 0 s

theorem exec_command_raisesAtMostOne {c : Config} {w : CommandWord} {i : Instr} {s t : State} (hd : decode c (.cw w) = .instr i)
    (h : exec i s = .next t) : raisesAtMostOne s t := by
  rcases exec_command_cases hd h with
    rfl | ⟨-, -, rfl⟩ | ⟨-, -, -, rfl⟩ | ⟨opcode, len, -, -, -, -, rfl⟩ | ⟨-, -, -, rfl⟩ | ⟨-, code, arg, rfl⟩
  case inr.inr.inr.inr.inr => exact raiseCtl_raisesAtMostOne code arg s
  all_goals exact raisesAtMostOne_refl _

theorem exec_txbWrite_raisesAtMostOne {addr data : Byte} {s t : State} (h : exec (.txbWrite addr data) s = .next t) :
    raisesAtMostOne s t := by
  rcases exec_txbWrite_cases h with ⟨-, rfl⟩ | ⟨-, -, rfl⟩ | ⟨-, -, -, rfl⟩
  · exact raisesAtMostOne_refl t
  · exact raiseCtl_raisesAtMostOne .txbWriteRefused addr s
  · exact raisesAtMostOne_refl s

theorem rxStop_raisesAtMostOne (s : State) : raisesAtMostOne s (rxStop s) := by
  unfold rxStop
  split
  · exact raiseRx_raisesAtMostOne .rxAbortStop s.rxState.arg s
  · exact raisesAtMostOne_refl s

theorem rxTimeout_raisesAtMostOne (s : State) : raisesAtMostOne s (rxTimeout s) := by
  unfold rxTimeout
  split
  · exact raiseRx_raisesAtMostOne .rxDropShortFrame s.rxState.arg s
  · exact raisesAtMostOne_refl s

theorem rxAckDone_raisesAtMostOne (s : State) : raisesAtMostOne s (rxAckDone s) := by
  unfold rxAckDone
  split
  · exact raiseRx_raisesAtMostOne .rxMsgReady s.rxSeq s
  · exact raiseRx_raisesAtMostOne .rxDropShortMsg s.rxLen s

theorem badEscape_raisesAtMostOne (w : Byte) (s : State) : raisesAtMostOne s (badEscape w s) := by
  unfold badEscape
  split
  · exact raiseRx_raisesAtMostOne .fatalBadEscape w s
  · exact raiseRx_raisesAtMostOne .rxDropBadEscape w s

/-- Of the rules of the fields only the checksum byte's raises an event: a bad sum, an Ack seen, an unknown type (R136 to R139). -/
theorem rxField_raisesAtMostOne {b : Byte} {s t : State} (hs : s.rxState.isAccum = true) (hf : s.fatal = false)
    (hq : s.stopReq = false) (h : rxField b s = .next t) : raisesAtMostOne s t := by
  rcases rxField_cases hs hf hq h with
    ⟨-, rfl⟩ | ⟨-, rfl⟩ | ⟨-, rfl⟩ | ⟨-, rfl⟩ | ⟨-, rfl⟩ | ⟨-, -, -, rfl⟩ | ⟨-, -, -, rfl⟩ | ⟨-, -, rfl⟩ |
    ⟨-, -, -, rfl⟩ | ⟨-, -, -, rfl⟩ | ⟨-, -, -, -, rfl⟩
  iterate 7 exact raisesAtMostOne_refl s
  · exact raiseRx_raisesAtMostOne .rxDropChecksum s.rxSum s
  · exact raisesAtMostOne_refl s
  · exact raiseRx_raisesAtMostOne .rxAckSeen s.rxSeq s
  · exact raiseRx_raisesAtMostOne .rxDropUnknownType s.rxType s

theorem exec_wireByte_raisesAtMostOne {s t : State} {ctx : RxContext} {w : Byte} (ht : s.rxTakes ctx = true)
    (h : exec (decodeRxByte s.cfg ctx w) s = .next t) : raisesAtMostOne s t := by
  obtain ⟨hf, hq, -⟩ := rxTakes_iff.1 ht
  rcases exec_wireByte_cases w ht with
    ⟨-, -, he⟩ | ⟨-, -, he⟩ | ⟨-, -, -, he⟩ | ⟨-, -, -, he⟩ | ⟨b, hr, -, he⟩ <;> rw [he] at h
  case inr.inr.inr.inl => cases h; exact badEscape_raisesAtMostOne w { s with rxEsc := false }
  case inr.inr.inr.inr => exact rxField_raisesAtMostOne (s := { s with rxEsc := false, rxSum := s.rxSum + b }) hr hf hq h
  all_goals cases h; exact raisesAtMostOne_refl s

theorem txStep_raisesAtMostOne {ready : Bool} {s t : State} (hf : s.fatal = false) (h : txStep ready s = .next t) :
    raisesAtMostOne s t := by
  rcases txStep_cases hf h with
    ⟨-, -, rfl⟩ | ⟨-, -, -, payload, -, rfl⟩ | ⟨-, -, -, rfl⟩ | ⟨-, -, rfl⟩ | ⟨-, -, rfl⟩ | ⟨-, b, rest, -, rfl⟩
  · exact raisesAtMostOne_refl s
  · exact raisesAtMostOne_refl s
  · exact raisesAtMostOne_refl t
  · exact raiseTx_raisesAtMostOne .txAckDone s.txSeq s
  · exact raiseTx_raisesAtMostOne .txMsgDone s.txSeq s
  · unfold txEmit
    split <;> exact raisesAtMostOne_refl s

/-! ## A whole step -/

/-- A step clears the event ports and then raises one event at most; a reset raises none and keeps the histories (R175,
log entry 3). -/
theorem step_raisesAtMostOne {s t : State} (h : step s = .next t) : raisesAtMostOne (beginStep s) t := by
  rcases step_cases h with ⟨-, rfl⟩ | ⟨a, turns, -, u, rfl, h⟩
  · exact raisesAtMostOne_refl _
  rcases h with rfl | ⟨-, rfl⟩ | ⟨-, -, rfl⟩ | ⟨w, rest, i, -, -, hd, -, h⟩ | ⟨w, rest, -, -, h⟩ | ⟨addr, rest, -, -, rfl⟩ |
    ⟨-, -, -, -, -, rfl⟩ | ⟨ctx, w, rest, -, ht, -, h⟩ | ⟨rest, -, -, -, -, -, rfl⟩ | ⟨-, -, -, -, -, rfl⟩ | ⟨ready, -, hf, h⟩
  · exact raisesAtMostOne_refl (beginStep s)
  · exact raisesAtMostOne_refl (beginStep s)
  · exact linkError_raisesAtMostOne { beginStep s with sched := turns }
  · exact exec_command_raisesAtMostOne (s := { beginStep s with sched := turns, hostq := rest }) hd h
  · exact exec_txbWrite_raisesAtMostOne (s := { beginStep s with sched := turns, hostq := rest }) h
  · exact raisesAtMostOne_refl (beginStep s)
  · exact rxStop_raisesAtMostOne { beginStep s with sched := turns }
  · exact exec_wireByte_raisesAtMostOne (s := { beginStep s with sched := turns, linkq := rest }) ht h
  · exact rxTimeout_raisesAtMostOne { beginStep s with sched := turns, linkq := rest }
  · exact rxAckDone_raisesAtMostOne { beginStep s with sched := turns }
  · exact txStep_raisesAtMostOne (s := { beginStep s with sched := turns }) hf h

/-- Settles O57: the ports are clear when the one event, if any, is raised, so each shows what its history has gained. -/
theorem oneEventPerPortPerStep : Obligations.OneEventPerPortPerStep := by
  intro s t h
  rcases step_raisesAtMostOne h with
    ⟨⟨hrx, hrxs⟩, ⟨htx, htxs⟩, hctl, hctls⟩ | ⟨k, x, ⟨⟨hrx, hrxs⟩, ⟨htx, htxs⟩, hctl, hctls⟩ |
      ⟨⟨hrx, hrxs⟩, ⟨htx, htxs⟩, hctl, hctls⟩ | ⟨⟨hrx, hrxs⟩, ⟨htx, htxs⟩, hctl, hctls⟩⟩
  all_goals simp [hrx, hrxs, htx, htxs, hctl, hctls]

end Sys2Proof.Machine

/-! PROOFS. The inputs of one hardware clock, in the order the model places them (R155, R185, log entry 8). -/

namespace Sys2Proof.Machine

/-- Settles O33: in each of the three cases the turn placed is the head of the schedule, and the write is the head of the host's
actions. -/
theorem clockInputsAreOrdered : Obligations.ClockInputsAreOrdered := by
  intro s linkErr write command
  refine ⟨step_cons (t := .reset) rfl, step_cons (t := .linkErr) rfl, ?_⟩
  rintro w cw rfl rfl
  exact (step_cons (t := .host) rfl).trans (congrArg runAction (hostTurn_of_txbWrite
    (s := { beginStep s with sched := .host :: s.sched, hostq := .txbWrite w :: .command cw :: s.hostq }) rfl))

end Sys2Proof.Machine

/-! PROOFS. When an engine has a step (R105, R125), and quiescence (R208): a turn changes something exactly where its engine's step is
enabled. -/

namespace Sys2Proof.Machine

/-! ## Enabled steps -/

theorem rxStepEnabled_iff {s : State} :
    s.rxStepEnabled = true ↔ s.fatal = false ∧
      (s.rxState.isByteState = true ∧ (s.stopReq = true ∨ s.linkq ≠ []) ∨ s.rxState = .ackWait ∧ s.ackReq = false) := by
  simp [State.rxStepEnabled]

/-- A TX step is enabled exactly if the block is not fatal and its TX engine not idle (R208). -/
theorem txStepEnabled_eq (s : State) : s.txStepEnabled = (!s.fatal && !s.txIdle) := by
  simp [State.txStepEnabled, State.stTxBusy, State.txIdle, bne]

theorem txIdle_iff {s : State} : s.txIdle = true ↔ s.txKind = .none ∧ s.msgPending = false ∧ s.ackReq = false := by
  simp [State.txIdle, and_assoc]

/-- A turn of a receiver with no step enabled does nothing, whatever the link offers (R13). -/
theorem rxTurn_of_not_enabled {s : State} (offered : Bool) (h : s.rxStepEnabled = false) :
    rxTurn offered s = .done (.next s) := by
  have hno := mt rxStepEnabled_iff.2 (Bool.eq_false_iff.1 h)
  cases hf : s.fatal with
  | true => exact rxTurn_of_fatal offered hf
  | false =>
    rcases rxTurn_cases hf offered with
      ⟨hr, hq, -⟩ | ⟨ctx, w, rest, ht, -, hl, -⟩ | ⟨rest, hr, -, -, hl, -⟩ | ⟨hr, ha, -⟩ | ⟨-, -, -, he⟩
    · exact absurd ⟨hf, .inl ⟨hr, .inl hq⟩⟩ hno
    · obtain ⟨-, hr, -⟩ := rxReady_iff.1 (rxReady_of_rxTakes ht)
      exact absurd ⟨hf, .inl ⟨isByteState_iff.2 hr, .inr (by simp [hl])⟩⟩ hno
    · exact absurd ⟨hf, .inl ⟨hr, .inr (by simp [hl])⟩⟩ hno
    · exact absurd ⟨hf, .inr ⟨hr, ha⟩⟩ hno
    · exact he

/-- A turn of a TX engine with no step enabled does nothing (R13). -/
theorem txStep_of_not_enabled {s : State} (ready : Bool) (h : s.txStepEnabled = false) : txStep ready s = .next s := by
  cases hf : s.fatal with
  | true => exact if_pos hf
  | false =>
    obtain ⟨hk, hm, ha⟩ := txIdle_iff.1 (by simpa [txStepEnabled_eq, hf] using h)
    simp [txStep, txLoad, hf, hk, hm, ha]

/-- An enabled RX step changes the state, the link offering what it holds: it takes the STOP request, takes the link's head, or leaves
`ACK_WAIT`. -/
theorem rxTurn_ne_self_of_enabled {s : State} (h : s.rxStepEnabled = true) : runAction (rxTurn true s) ≠ .next s := by
  intro hself
  obtain ⟨hf, ⟨hr, hin⟩ | ⟨hr, ha⟩⟩ := rxStepEnabled_iff.1 h
  · cases hq : s.stopReq with
    | true =>
      rw [rxTurn_of_stop true hf hr hq, runAction_done, rxStop_eq, Host.Outcome.next.injEq] at hself
      have hstop : false = s.stopReq := congrArg State.stopReq hself
      simp [hq] at hstop
    | false =>
      have htaken := rxTurn_linkq hself
      rw [if_pos ⟨rfl, rxReady_iff.2 ⟨hf, isByteState_iff.1 hr, hq⟩⟩] at htaken
      obtain ⟨item, rest, hl⟩ := List.exists_cons_of_ne_nil (hin.resolve_left (by simp [hq]))
      rw [hl, List.tail_cons] at htaken
      exact List.cons_ne_self item rest htaken
  · rw [rxTurn_of_ackDone true hf hr ha, runAction_done, Host.Outcome.next.injEq] at hself
    have hleft := congrArg State.rxState hself
    unfold rxAckDone at hleft
    split at hleft <;> simp [hr] at hleft

/-- An enabled TX step changes the state, the link accepting: it starts or ends a frame, stops with the fault of R118, or hands over
the head of `tx_rem`. -/
theorem txStep_ne_self_of_enabled {s : State} (h : s.txStepEnabled = true) : txStep true s ≠ .next s := by
  intro hself
  obtain ⟨hf, hbusy⟩ : s.fatal = false ∧ s.txIdle = false := by simpa [txStepEnabled_eq] using h
  rcases txStep_cases hf hself with
    ⟨hk, -, he⟩ | ⟨hk, -, -, payload, -, he⟩ | ⟨hk, ha, hm, -⟩ | ⟨hk, -, he⟩ | ⟨hk, -, he⟩ | ⟨-, b, rest, hr, he⟩
  · cases hk.symm.trans (congrArg State.txKind he)
  · cases hk.symm.trans (congrArg State.txKind he)
  · cases hbusy.symm.trans (txIdle_iff.2 ⟨hk, hm, ha⟩)
  · cases hk.symm.trans (congrArg State.txKind he)
  · cases hk.symm.trans (congrArg State.txKind he)
  · exact List.cons_ne_self b rest (hr.symm.trans (congrArg State.txRem he))

/-! ## Quiescence -/

theorem rxAtRest_iff {s : State} :
    s.rxAtRest = true ↔
      s.rxState = .hunt ∧ s.linkq = [] ∧ s.stopReq = false ∨ s.rxState = .stopped ∨ s.rxState = .deliver := by
  simp [State.rxAtRest, and_assoc, or_assoc]

theorem quiescent_iff {s : State} : s.quiescent = true ↔ s.txIdle = true ∧ s.rxAtRest = true := by
  simp [State.quiescent]

/-- A receiver at rest has no step (R208). -/
theorem rxStepEnabled_of_rxAtRest {s : State} (h : s.rxAtRest = true) : s.rxStepEnabled = false := by
  rcases rxAtRest_iff.1 h with ⟨hr, hl, hq⟩ | hr | hr
  · simp [State.rxStepEnabled, hr, hl, hq]
  all_goals simp [State.rxStepEnabled, hr, RxState.isByteState, RxState.isAccum]

/-- With no Ack requested, a receiver not at rest has a step, unless it waits for the link inside a frame. -/
theorem rxStepEnabled_of_not_rxAtRest {s : State} (hf : s.fatal = false) (ha : s.ackReq = false) (h : s.rxAtRest = false)
    (hin : s.rxState.isAccum = false ∨ s.linkq ≠ [] ∨ s.stopReq = true) : s.rxStepEnabled = true := by
  refine rxStepEnabled_iff.2 ⟨hf, ?_⟩
  have hno := mt rxAtRest_iff.2 (Bool.eq_false_iff.1 h)
  cases hr : s.rxState
  case stopped => exact absurd (.inr (.inl hr)) hno
  case deliver => exact absurd (.inr (.inr hr)) hno
  case ackWait => exact .inr ⟨rfl, ha⟩
  case hunt =>
    refine .inl ⟨rfl, ?_⟩
    by_contra hnone
    simp only [not_or, not_not, Bool.not_eq_true] at hnone
    exact hno (.inl ⟨hr, hnone.2, hnone.1⟩)
  all_goals
    rw [hr] at hin
    exact .inl ⟨rfl, (hin.resolve_left nofun).symm⟩

/-- A state neither quiescent nor fatal, and not waiting for the link inside a frame, has a step of one of its engines (R208). -/
theorem enabled_of_not_quiescent {s : State} (h : s.quiescent = false) (hf : s.fatal = false)
    (hin : s.rxState.isAccum = false ∨ s.linkq ≠ [] ∨ s.stopReq = true) :
    s.rxStepEnabled = true ∨ s.txStepEnabled = true := by
  cases hi : s.txIdle with
  | false => exact .inr (by rw [txStepEnabled_eq, hf, hi]; rfl)
  | true =>
    obtain ⟨-, -, ha⟩ := txIdle_iff.1 hi
    exact .inl (rxStepEnabled_of_not_rxAtRest hf ha (by simpa [State.quiescent, hi] using h) hin)

/-- Settles O58: a quiescent state has no engine step enabled and any other has one; a turn changes something exactly then. -/
theorem quiescentStateHasNoEngineStep : Obligations.QuiescentStateHasNoEngineStep := by
  refine fun s => ⟨fun turns b hquiet hs => ?_, fun hquiet hf hin => ?_⟩
  · obtain ⟨hidle, hrest⟩ := quiescent_iff.1 hquiet
    rcases hs with hs | hs <;> rw [step_cons hs]
    · have hrx : ({ beginStep s with sched := turns } : State).rxStepEnabled = false := rxStepEnabled_of_rxAtRest hrest
      exact congrArg runAction (rxTurn_of_not_enabled b hrx)
    · have htx : ({ beginStep s with sched := turns } : State).txStepEnabled = false :=
        (txStepEnabled_eq s).trans (by simp [hidle])
      exact txStep_of_not_enabled b htx
  · refine (enabled_of_not_quiescent hquiet hf hin).imp (fun hrx turns => ?_) (fun htx turns => ?_)
    · rw [step_cons rfl]
      exact rxTurn_ne_self_of_enabled (s := { beginStep s with sched := turns }) hrx
    · rw [step_cons rfl]
      exact txStep_ne_self_of_enabled (s := { beginStep s with sched := turns }) htx

end Sys2Proof.Machine

/-! PROOFS. A reset turn (R195). -/

namespace Sys2Proof.Machine

theorem step_reset {s : State} {turns : List Turn} (hs : s.sched = .reset :: turns) :
    step s = .next (applyReset { beginStep s with sched := turns }) := step_cons hs

/-- Neither buffer holds a byte after a reset (log entries 11 and 12). -/
theorem applyReset_buffers (s : State) (a : Nat) :
    Memory.read (applyReset s).txbuf a = none ∧ (applyReset s).txbWritten a = false ∧
      Memory.read (applyReset s).rxbuf a = none := ⟨rfl, rfl, rfl⟩

/-- Settles O30: each register, port and history is read off `applyReset`. -/
theorem resetRestoresEveryRegister : Obligations.ResetRestoresEveryRegister := by
  intro s turns hs
  have hrx : sameReceiver (State.resetWith s.cfg) (applyReset { beginStep s with sched := turns }) :=
    ⟨rfl, rfl, rfl, rfl, rfl, rfl, rfl, rfl, rfl, rfl⟩
  exact ⟨_, step_reset hs, hrx, sameTransmitter_refl _, ⟨rfl, rfl⟩, rfl, applyReset_buffers _, rfl, rfl, rfl, rfl, rfl, rfl, rfl,
    rfl, rfl⟩

end Sys2Proof.Machine
